-- ==== Sys2Proof/Word.lean ====
section
/-! DEFINITION. The words of the model: bytes, batch numbers, records as bytes, and moments of time. -/

namespace Sys2Proof

/-- A byte of flash, of a trunk frame, of a rail session or of a feed transaction. -/
abbrev Byte := BitVec 8

/-- A batch number: a 16-bit counter that wraps (R19). -/
abbrev Batch := BitVec 16

/-- A price record as its bytes, 32 of them (R4, R65); records are carried byte for byte. -/
abbrev Record := List Byte

/-- A moment or a duration, in microseconds. -/
abbrev Micros := Nat

/-- A sparse table: pairs of a number and its value, numbers strictly rising, an unlisted number
standing for a value fixed by the table. -/
abbrev Table (α : Type) := List (Nat × α)

end Sys2Proof
end

