-- ==== Sys2Proof/Syntax.lean ====
section
/-! DEFINITION. The commands of the block: one constructor for each row of spec/opcode_table.json,
with the types of their operands. Every command carries first the moment `t` at which it happens
(log entry 3); inputs that one command samples are its operands (log entry 9). -/

namespace Sys2Proof

/-- The strap inputs as read (R201). -/
structure Straps where
  /-- STN7..STN0, the station number. -/
  stn : Byte
  /-- PTN7..PTN0, the partner station number. -/
  ptn : Byte
  /-- XW: cross ports wired. -/
  xw : Bool
  /-- KB1, KB0: the refresh budget code. -/
  kb : BitVec 2
deriving DecidableEq, Repr

/-- The next phase (R147). -/
inductive NextPhase where
  | none | gathering | complete | holding
deriving DecidableEq, Repr

/-- The live phase (R148). -/
inductive LivePhase where
  | none | swapping | settled
deriving DecidableEq, Repr

/-- The fields of a DIGEST frame (R61). -/
structure Digest where
  live : Option Batch
  livePhase : LivePhase
  liveCount : BitVec 16
  liveHeld : BitVec 16
  next : Option Batch
  nextCount : BitVec 16
  nextHeld : BitVec 16
  lowestMissing : Option (BitVec 16)
  nextPhase : NextPhase
  staged : BitVec 16
  preloaded : BitVec 16
  heldPartner : Byte
  isolated : Bool
  duplicate : Bool
deriving DecidableEq, Repr

/-- A trunk frame less its source: its kind and body (R49). -/
inductive Frame where
  | opening (batch : Batch) (count : BitVec 16) (rep : Bool)
  | price (batch : Batch) (repair : Bool) (records : List Record)
  | digest (d : Digest)
  | want (batch : Batch) (ranges : List (BitVec 16 × BitVec 16))
  | stop (batch : Batch)
  | flip (batch : Batch) (echo : Bool)
  | claim (partner : Byte)
  | yield (partner : Byte)
deriving DecidableEq, Repr

/-- How a session that ran its course ended (R119): the outcome classes less STRETCH_TIMEOUT,
PREEMPTED and POWER_LOST, which are commands of their own. -/
inductive SessionEnd where
  | done | addressRefused | opcodeRefused | checkRefused
deriving DecidableEq, Repr

/-- The label state that STATUS reads (R115, R116). -/
inductive LabelState where
  | showing | refreshing
deriving DecidableEq, Repr

/-- The answer of a label to STATUS (R116), its state as the station takes it: an answer whose state byte is
no code of R65 comes as either of the two (log entry 56). -/
structure StatusAnswer where
  state : LabelState
  /-- The batch of the shown page, absent when there is none. -/
  shown : Option Batch
  /-- The batch and check of the pending page, absent when it is not valid. -/
  page : Option (Batch × BitVec 16)
deriving DecidableEq, Repr

/-- The answer of a label to IDENT (R116): serial number and the seven article bytes. -/
structure IdentAnswer where
  serial : BitVec 32
  article : List Byte
deriving DecidableEq, Repr

/-- What a label session read. -/
inductive Answer where
  | nothing
  | status (a : StatusAnswer)
  | ident (a : IdentAnswer)
deriving DecidableEq, Repr

/-- The kinds of job of a rail's work list (R128). -/
inductive JobKind where
  | prove | census | poll | swap | preload | assign | revisit
deriving DecidableEq, Repr

/-- A command: one constructor for each row of spec/opcode_table.json. -/
inductive Instr where
  | powerOn (t : Micros) (straps : Straps)
  | powerLoss (t : Micros)
  | resetNFall (t : Micros)
  | resetNRise (t : Micros) (straps : Straps)
  | scanEnd (t : Micros)
  | listenEnd (t : Micros)
  /-- FSEL_N rises after `bits` clocks; `bytes` are the whole bytes clocked in, at most 257 (R182). -/
  | transactionEnd (t : Micros) (bits : Nat) (bytes : List Byte)
  /-- The length byte of a FETCH has been clocked in. -/
  | fetch (t : Micros) (length : Byte)
  | openBatch (t : Micros)
  | putRecords (t : Micros)
  | callFlip (t : Micros)
  | stopBatch (t : Micros)
  | readStatus (t : Micros)
  | readEntry (t : Micros)
  | readCounters (t : Micros)
  | writeEnable (t : Micros)
  | writeDisable (t : Micros)
  /-- `lockN` is the level of LOCK_N at the moment of execution (R105). -/
  | assignPosition (t : Micros) (lockN : Bool)
  | clearPosition (t : Micros) (lockN : Bool)
  | setLock (t : Micros) (lockN : Bool)
  | clearAlert (t : Micros)
  | restart (t : Micros) (straps : Straps)
  | unknownCommand (t : Micros)
  /-- The bytes received of a frame from its delimiter on, and whether an invalid level was seen. -/
  | frameDiscarded (t : Micros) (invalid : Bool) (bytes : List Byte)
  | openFrame (t : Micros) (src : Byte) (batch : Batch) (count : BitVec 16) (rep : Bool)
  | priceFrame (t : Micros) (src : Byte) (batch : Batch) (repair : Bool) (records : List Record)
  | digestFrame (t : Micros) (src : Byte) (digest : Digest)
  | wantFrame (t : Micros) (src : Byte) (batch : Batch) (ranges : List (BitVec 16 × BitVec 16))
  | stopFrame (t : Micros) (src : Byte) (batch : Batch)
  | flipFrame (t : Micros) (src : Byte) (batch : Batch) (echo : Bool)
  | claimFrame (t : Micros) (src : Byte) (partner : Byte)
  | yieldFrame (t : Micros) (src : Byte) (partner : Byte)
  | lineIdle (t : Micros)
  | transmitStart (t : Micros)
  | collision (t : Micros)
  | transmissionComplete (t : Micros)
  | transmitPlaceGranted (t : Micros)
  | digestTimerExpiry (t : Micros)
  | isolationTimerExpiry (t : Micros)
  | wantDelayExpiry (t : Micros) (slot : Fin 8)
  | wantWaitExpiry (t : Micros) (slot : Fin 8)
  | trailingGapTimerExpiry (t : Micros)
  | answerTimerExpiry (t : Micros) (batch : Batch)
  | flashRequestDone (t : Micros)
  | eraseSuspend (t : Micros)
  | sectorEraseComplete (t : Micros)
  | directoryEraseComplete (t : Micros)
  /-- `engine` is the rail engine whose session ends; `read` the bytes a PATTERN_READ read. -/
  | provingSessionEnd (t : Micros) (engine : Fin 4) (ending : SessionEnd) (read : List Byte)
  | censusSessionEnd (t : Micros) (engine : Fin 4) (ending : SessionEnd) (answer : Answer)
  | revisitSessionEnd (t : Micros) (engine : Fin 4) (ending : SessionEnd) (answer : Answer)
  | pollSessionEnd (t : Micros) (engine : Fin 4) (ending : SessionEnd) (answer : Answer)
  | swapSessionEnd (t : Micros) (engine : Fin 4) (ending : SessionEnd)
  | preloadSessionEnd (t : Micros) (engine : Fin 4) (ending : SessionEnd)
  | assignSessionEnd (t : Micros) (engine : Fin 4) (ending : SessionEnd)
  | refusalCheckEnd (t : Micros) (engine : Fin 4) (ending : SessionEnd) (answer : Answer)
  | stretchTimeout (t : Micros) (engine : Fin 4)
  | railResetPulseEnd (t : Micros) (engine : Fin 4)
  /-- `rail` is a rail index: 0..3 the home rails, 4..7 the cross rails (R88). -/
  | railPowerLost (t : Micros) (rail : Fin 8)
  | railPowerReturn (t : Micros) (rail : Fin 8)
  | deadRailReprove (t : Micros) (rail : Fin 8)
  | pollDue (t : Micros) (rail : Fin 8) (pos : Fin 64)
  | revisitDue (t : Micros) (rail : Fin 8) (pos : Fin 64)
  /-- `kind` is CENSUS or REVISIT, the two kinds that carry the identity-due mark (R128). -/
  | identityDue (t : Micros) (rail : Fin 8) (kind : JobKind) (pos : Fin 64)
  | identityDueTimeout (t : Micros) (rail : Fin 8) (kind : JobKind) (pos : Fin 64)
  | refusedJobRetry (t : Micros) (rail : Fin 8) (kind : JobKind) (pos : Fin 64)
  | holdTimerExpiry (t : Micros)
  | gapTimerExpiry (t : Micros)
  | callTimerExpiry (t : Micros)
  | callPeriodExpiry (t : Micros)
  | quietTimerExpiry (t : Micros)
  | echoPeriodExpiry (t : Micros)
  | partnerSilenceTimerExpiry (t : Micros)
  /-- `asserted` gives RHLD_X0..RHLD_X3 as read at the expiry, true where asserted (R166). -/
  | claimGuardExpiry (t : Micros) (asserted : Vector Bool 4)
  | holdLineAsserted (t : Micros) (port : Fin 4)
  | waitReleaseTimeout (t : Micros)
  | holderSilence (t : Micros)
  | takingComplete (t : Micros) (port : Fin 4)
  | holdLineReadbackReleased (t : Micros) (port : Fin 4)
  | lineBusy (t : Micros)
  | fselNFall (t : Micros)
  | holdLineReadbackAsserted (t : Micros) (port : Fin 4)
deriving DecidableEq, Repr

end Sys2Proof
end

