-- ==== Sys2Proof/Decode.lean ====
section
/-! DEFINITION. The commands that words spell: the table gives no row any bits (log entry 27). -/

namespace Sys2Proof

/-- The command an `nbits`-bit word spells by the table's bits: none of its rows has any. -/
def decodeTableWord (_nbits _w : Nat) : Option Instr := none

end Sys2Proof
end

