-- ==== Sys2Proof/Config.lean ====
section
/-! DEFINITION. What the spec fixes as a number of the part, and the free values it leaves open. -/

namespace Sys2Proof.Config

/-- FREE VALUE (log entry 6): the raw value of the n-th random draw; every use reduces it into the
bounds the rule names (R57, R62, R72, R80, R160). -/
opaque draw : Nat → Nat

/-- FREE VALUE (log entry 7): the bits a cut-off flash program or bank erase leaves behind (R42). -/
opaque cutByte : Nat → BitVec 8

/-- FREE VALUE (log entry 7): which of the outcomes named by R111 a cut-off directory operation leaves. -/
opaque cutChoice : Nat → Nat

/-- FREE VALUE (log entry 40): the n-th byte on FDO where no transaction is in progress but FSEL_N is low. -/
opaque idleByte : Nat → BitVec 8

/-- Milliseconds as microseconds. -/
abbrev ms (n : Nat) : Micros := 1000 * n

/-- Seconds as microseconds. -/
abbrev sec (n : Nat) : Micros := 1000000 * n

/-- R205: the length of LISTEN. -/
abbrev listenTime := sec 3
/-- R53: the isolation timer. -/
abbrev isolationTime := sec 60
/-- R71: the trailing-gap timer. -/
abbrev trailingTime := ms 1500
/-- R74: the wait of a want slot. -/
abbrev wantWait := sec 1
/-- R150: the hold timer. -/
abbrev holdTime := sec 3
/-- R150: the gap timer. -/
abbrev gapTime := ms 750
/-- R157: the call period. -/
abbrev callTime := sec 30
/-- R158: the call timer. -/
abbrev callTick := ms 250
/-- R159: the echo period. -/
abbrev echoTime := sec 60
/-- R163: the partner silence timer, and the holder silence of R178. -/
abbrev silenceTime := sec 30
/-- R164: the claim guard. -/
abbrev guardTime := sec 2
/-- R178: the WAIT_RELEASE timer. -/
abbrev releaseTime := sec 20
/-- R179: how long a home hold line must read back asserted. -/
abbrev takingTime := ms 5
/-- R114: the rail reset pulse. -/
abbrev pulseTime := ms 2
/-- R128: from a swap or a poll to the next poll; also the retry times of R121 and R132. -/
abbrev pollTime := ms 500
/-- R128: from a give-up to the revisit. -/
abbrev revisitTime := sec 60
/-- R125: from DEAD to the next proving. -/
abbrev reproveTime := sec 60
/-- R144: the refresh limit; R132: the limit of an identity-due job; R126: the fault-burst window. -/
abbrev tenSeconds := sec 10
/-- R46: the bit time of the trunk. -/
abbrev trunkBitTime : Micros := 4
/-- R112: the bit time of a rail, and that of a DEGRADED one. -/
abbrev railBitTime : Micros := 10
abbrev slowBitTime : Micros := 20
/-- R57: the slot time, 64 bit times. -/
abbrev slotTime : Micros := 256
/-- R33: the time of a program. -/
abbrev programTime : Micros := 80
/-- R33: the time of a read. -/
abbrev readTime : Micros := 2
/-- R33: the time of a sector erase. -/
abbrev eraseTime := ms 40
/-- R34: from a request's arrival to the suspension of an erase. -/
abbrev suspendTime : Micros := 25
/-- R208: where a counter stops. -/
abbrev counterTop : Nat := 65535
/-- R37: places of the hold queue. -/
abbrev holdPlaces : Nat := 64
/-- R41: places of the unstored list. -/
abbrev unstoredPlaces : Nat := 16
/-- R33: places of the flash request queue. -/
abbrev flashPlaces : Nat := 32
/-- R54: places of the transmit queue. -/
abbrev transmitPlaces : Nat := 16
/-- R183, R188: places of the command buffer and of the result queue. -/
abbrev feedPlaces : Nat := 4
/-- R1, R27: the highest sequence number and record count. -/
abbrev maxCount : Nat := 32767
/-- R80, R72: the most numbers of an answer list or of a WANT. -/
abbrev maxNumbers : Nat := 63

end Sys2Proof.Config
end

