-- ==== Sys2Proof/Machine/Bytes.lean ====
section
/-! DEFINITION. Byte layouts: big-endian fields, sums and binary-coded decimal (R65). -/

namespace Sys2Proof.Machine

/-- An unsigned big-endian number (R65: most significant byte first). -/
def beNat (bs : List Byte) : Nat :=
  bs.foldl (fun n b => 256 * n + b.toNat) 0

/-- The `n` bytes at offset `off` as a number. -/
def field (bs : List Byte) (off n : Nat) : Nat :=
  beNat ((bs.drop off).take n)

/-- The `n` bytes at offset `off`. -/
def slice (bs : List Byte) (off n : Nat) : List Byte :=
  (bs.drop off).take n

/-- The byte at offset `i`, 0 beyond the end. -/
def byteAt (bs : List Byte) (i : Nat) : Byte :=
  bs.getD i 0

/-- Bit `i` of a flag byte (R65). -/
def flagBit (b : Byte) (i : Nat) : Bool :=
  b.getLsbD i

/-- A flag byte from its bits, bit 0 first; the other bits are sent as 0 (R65). -/
def flagByte (bits : List Bool) : Byte :=
  BitVec.ofNat 8 (bits.foldr (fun b n => (if b then 1 else 0) + 2 * n) 0)

def be1 (n : Nat) : List Byte := [BitVec.ofNat 8 n]
def be2 (n : Nat) : List Byte := [BitVec.ofNat 8 (n / 256), BitVec.ofNat 8 n]
def be3 (n : Nat) : List Byte := BitVec.ofNat 8 (n / 65536) :: be2 n
def be4 (n : Nat) : List Byte := BitVec.ofNat 8 (n / 16777216) :: be3 n

/-- The bits of bytes, most significant first (R46, R113, R123). -/
def bitsOf (bs : List Byte) : List Bool :=
  bs.flatMap fun b => [7, 6, 5, 4, 3, 2, 1, 0].map b.getLsbD

/-- `n` bytes from bits, most significant first (R123, R180). -/
def bytesOfBits : Nat → List Bool → List Byte
  | 0, _ => []
  | n + 1, bs => BitVec.ofNat 8 ((bs.take 8).foldl (fun x b => 2 * x + b.toNat) 0) :: bytesOfBits n (bs.drop 8)

/-- A sum of bytes modulo 65,536: the record check, page check and header check (R4, R16, R65). -/
def byteSum (bs : List Byte) : Nat :=
  (bs.map BitVec.toNat).sum % 65536

/-- The decimal digits of binary-coded decimal bytes, most significant first. -/
def bcdDigits (bs : List Byte) : List Nat :=
  bs.flatMap fun b => [b.toNat / 16, b.toNat % 16]

/-- The article code of seven BCD bytes; a digit above 9 names no code (R65). -/
def articleOf (bs : List Byte) : Option Nat :=
  let ds := bcdDigits bs
  if ds.length = 14 ∧ ds.all (· < 10) then some (ds.foldl (fun n d => 10 * n + d) 0) else none

/-- Two decimal digits of `n`, those of weight `10^k` and `10^(k+1)`, as one BCD byte. -/
def bcdPair (n k : Nat) : Byte :=
  BitVec.ofNat 8 (16 * (n / 10 ^ (k + 1) % 10) + n / 10 ^ k % 10)

/-- The seven BCD bytes of an article code (R65). -/
def articleBytes (a : Nat) : List Byte :=
  [12, 10, 8, 6, 4, 2, 0].map (bcdPair a)

/-- The seven bytes that mean "no article" (R65). -/
def noArticleBytes : List Byte :=
  List.replicate 7 0xFF

end Sys2Proof.Machine
end

