-- ==== Sys2Proof/Machine/Record.lean ====
section
/-! DEFINITION. Price records, the validity test and the face composer (file 01, R1 to R18). -/

namespace Sys2Proof.Machine

/-- R1: the kinds of record. -/
inductive RecordKind where
  | regular | markdown | multi | withdraw
deriving DecidableEq, Repr

/-- R1: the ending rule E. -/
inductive EndingRule where
  | none | end99 | end95 | whole
deriving DecidableEq, Repr

/-- R1: the measure U of a pack group. -/
inductive Measure where
  | gram | millilitre | piece
deriving DecidableEq, Repr

/-- R1: the reference of a pack group. -/
inductive Reference where
  | per100 | per1000 | per1
deriving DecidableEq, Repr

/-- R3: the unit codes of a face. -/
inductive UnitCode where
  | per100g | perKg | per100ml | perLitre | perPiece
deriving DecidableEq, Repr

/-- R5: the validity faults, in the order of the checks. -/
inductive ValidityFault where
  | recordCheck | kind | presence | range | pair
deriving DecidableEq, Repr

/-- R1: a pack group of an allowed pair (R3): quantity Q, reference quantity R and unit code. -/
structure Pack where
  quantity : Nat
  reference : Nat
  code : UnitCode
deriving DecidableEq, Repr

/-- The fields of a valid price record (R1), optional fields as R2 lays down. -/
structure PriceRecord where
  seq : Nat
  batch : Batch
  article : Nat
  kind : RecordKind
  base : Nat
  markdown : Option Nat
  ending : Option EndingRule
  multi : Option (Nat × Nat)
  pack : Option Pack
deriving DecidableEq, Repr

/-! ### Fields of a record (R65) -/

def recSeq (r : Record) : Nat := field r 0 2
def recBatch (r : Record) : Batch := BitVec.ofNat 16 (field r 2 2)
def recArticle (r : Record) : Option Nat := articleOf (slice r 4 7)
def recCheck (r : Record) : Nat := field r 30 2

/-- R4: the record check agrees. -/
def recCheckAgrees (r : Record) : Bool :=
  r.length = 32 && recCheck r = byteSum (r.take 30)

def kindOfCode : Nat → Option RecordKind
  | 1 => some .regular | 2 => some .markdown | 3 => some .multi | 4 => some .withdraw
  | _ => none

def endingOfCode : Nat → Option EndingRule
  | 0 => some .none | 1 => some .end99 | 2 => some .end95 | 3 => some .whole
  | _ => none

def measureOfCode : Nat → Option Measure
  | 1 => some .gram | 2 => some .millilitre | 3 => some .piece
  | _ => none

def referenceOfCode : Nat → Option Reference
  | 1 => some .per100 | 2 => some .per1000 | 3 => some .per1
  | _ => none

/-- R3: the reference quantity and unit code of a pair, none where the pair is refused. -/
def pairOf : Measure → Reference → Option (Nat × UnitCode)
  | .gram, .per100 => some (100, .per100g)
  | .gram, .per1000 => some (1000, .perKg)
  | .millilitre, .per100 => some (100, .per100ml)
  | .millilitre, .per1000 => some (1000, .perLitre)
  | .piece, .per1 => some (1, .perPiece)
  | _, _ => none

/-- R2: the presence bits (M, E, N and MP, pack group) a kind admits. -/
def presenceFits : RecordKind → Bool → Bool → Bool → Bool → Bool
  | .regular, m, e, n, _ => !m && !e && !n
  | .markdown, m, e, n, _ => m && e && !n
  | .multi, m, e, n, _ => !m && !e && n
  | .withdraw, m, e, n, p => !m && !e && !n && !p

/-- R1: a price, P or MP, in 1..9,999,999. -/
def priceFits (p : Nat) : Bool := 1 ≤ p && p ≤ 9999999

/-- R5, check 4: every present field in its range. -/
def rangesOfRecordFit (r : Record) : Bool :=
  let pres := byteAt r 12
  (1 ≤ recSeq r && recSeq r ≤ 32767)
    && (recArticle r).isSome
    && priceFits (field r 13 3)
    && (!flagBit pres 0 || (1 ≤ field r 16 1 && field r 16 1 ≤ 90))
    && (!flagBit pres 1 || (endingOfCode (field r 17 1)).isSome)
    && (!flagBit pres 2 || ((2 ≤ field r 18 1 && field r 18 1 ≤ 9) && priceFits (field r 19 3)))
    && (!flagBit pres 3 || (1 ≤ field r 22 2 && (measureOfCode (field r 24 1)).isSome
        && (referenceOfCode (field r 25 1)).isSome))

/-- The pack group of a record that passed check 4: absent, of an allowed pair, or none of R3's pairs. -/
def packOf (r : Record) : Except ValidityFault (Option Pack) :=
  if flagBit (byteAt r 12) 3 then
    match measureOfCode (field r 24 1), referenceOfCode (field r 25 1) with
    | some u, some f =>
      match pairOf u f with
      | some (q, c) => .ok (some ⟨field r 22 2, q, c⟩)
      | none => .error .pair
    | _, _ => .error .range
  else .ok none

/-- R5: the validity test, in its order, with the record's fields where it passes. -/
def judgeRecord (r : Record) : Except ValidityFault PriceRecord :=
  if !recCheckAgrees r then .error .recordCheck
  else
    match kindOfCode (field r 11 1) with
    | none => .error .kind
    | some k =>
      let pres := byteAt r 12
      if !(presenceFits k (flagBit pres 0) (flagBit pres 1) (flagBit pres 2) (flagBit pres 3)
          && pres.toNat < 16) then .error .presence
      else if !rangesOfRecordFit r then .error .range
      else
        match packOf r with
        | .error f => .error f
        | .ok p => .ok
          { seq := recSeq r, batch := recBatch r, article := (recArticle r).getD 0, kind := k
            base := field r 13 3
            markdown := if flagBit pres 0 then some (field r 16 1) else none
            ending := if flagBit pres 1 then endingOfCode (field r 17 1) else none
            multi := if flagBit pres 2 then some (field r 18 1, field r 19 3) else none
            pack := p }

/-- R5: the record is valid. -/
def recValid (r : Record) : Bool :=
  match judgeRecord r with
  | .ok _ => true
  | .error _ => false

/-! ### The face (R7) -/

/-- R7: the face kinds. -/
inductive FaceKind where
  | regular | markdown | multi | withdrawn
deriving DecidableEq, Repr

/-- R7: the unit price of a face. -/
inductive UnitPrice where
  | absent | overflow | value (n : Nat)
deriving DecidableEq, Repr

/-- R7: the fields of a face less the page check, which R16 computes from the page. -/
structure Face where
  kind : FaceKind
  batch : Batch
  shown : Nat
  base : Nat
  unitPrice : UnitPrice
  unitCode : Option UnitCode
  multi : Option (Nat × Nat)
  tail : Nat
  markdownVoid : Bool
  multiVoid : Bool
  unitOver : Bool
deriving DecidableEq, Repr

/-- R10: the markdown stage. -/
def markdownStage (p m : Nat) : Nat :=
  max 1 (p * (100 - m) / 100)

/-- R11: the ending snap. -/
def endingSnap (e : EndingRule) (s : Nat) : Nat :=
  match e with
  | .none => s
  | .end99 => if 99 ≤ s then s - (s - 99) % 100 else s
  | .end95 => if 95 ≤ s then s - (s - 95) % 100 else s
  | .whole => if 100 ≤ s then s - s % 100 else s

/-- R14: the unit price before its limits. -/
def unitQuotient (s r q : Nat) : Nat :=
  (2 * s * r + q) / (2 * q)

/-- R14: the unit-price stage on the final S. -/
def unitStage (s : Nat) (pack : Option Pack) : UnitPrice × Option UnitCode × Bool :=
  match pack with
  | none => (.absent, none, false)
  | some p =>
    let up := unitQuotient s p.reference p.quantity
    if 999999 < up then (.overflow, some p.code, true)
    else (.value (max 1 up), some p.code, false)

/-- A face of shown price `s` with the fields of R9 and the unit-price stage of R14. -/
def faceWith (r : PriceRecord) (kind : FaceKind) (s : Nat) (multi : Option (Nat × Nat))
    (markdownVoid multiVoid : Bool) : Face :=
  let u := unitStage s r.pack
  { kind := kind, batch := r.batch, shown := s, base := r.base, unitPrice := u.1, unitCode := u.2.1
    multi := multi, tail := r.article % 10000, markdownVoid := markdownVoid
    multiVoid := multiVoid, unitOver := u.2.2 }

/-- R10 to R12: the face of a MARKDOWN record. -/
def composeMarkdown (r : PriceRecord) : Face :=
  let s := endingSnap (r.ending.getD .none) (markdownStage r.base (r.markdown.getD 0))
  if s < r.base then faceWith r .markdown s none false false
  else faceWith r .regular s none true false

/-- R13: the face of a MULTI record. -/
def composeMulti (r : PriceRecord) : Face :=
  match r.multi with
  | some (n, mp) =>
    if mp < n * r.base then faceWith r .multi r.base (some (n, mp)) false false
    else faceWith r .regular r.base none false true
  | none => faceWith r .regular r.base none false true

/-- R15: the face of a WITHDRAW record. -/
def composeWithdraw (r : PriceRecord) : Face :=
  { kind := .withdrawn, batch := r.batch, shown := 1, base := 1, unitPrice := .absent
    unitCode := none, multi := none, tail := r.article % 10000, markdownVoid := false
    multiVoid := false, unitOver := false }

/-- R8: the face composer; the result depends on the record's fields alone. -/
def compose (r : PriceRecord) : Face :=
  match r.kind with
  | .regular => faceWith r .regular r.base none false false
  | .markdown => composeMarkdown r
  | .multi => composeMulti r
  | .withdraw => composeWithdraw r

/-- The face of a record given as bytes; records taken in are valid (R6); a slot that the scan finds
good by R44 and that fails another check of R5 has none (log entry 59). -/
def faceOf (r : Record) : Option Face :=
  match judgeRecord r with
  | .ok p => some (compose p)
  | .error _ => none

/-! ### The face page (R65) -/

def faceKindCode : FaceKind → Nat
  | .regular => 1 | .markdown => 2 | .multi => 3 | .withdrawn => 4

def unitPriceCode : UnitPrice → Nat
  | .absent => 0 | .overflow => 0xFFFFFF | .value n => n

def unitCodeCode : Option UnitCode → Nat
  | none => 0 | some .per100g => 1 | some .perKg => 2 | some .per100ml => 3
  | some .perLitre => 4 | some .perPiece => 5

/-- R65: bytes 0..29 of the face page; the article tail goes in unsigned binary (log entry 45). -/
def Face.bodyBytes (f : Face) : List Byte :=
  be1 (faceKindCode f.kind) ++ be2 f.batch.toNat ++ be3 f.shown ++ be3 f.base
    ++ be3 (unitPriceCode f.unitPrice) ++ be1 (unitCodeCode f.unitCode)
    ++ be1 ((f.multi.map Prod.fst).getD 0) ++ be3 ((f.multi.map Prod.snd).getD 0)
    ++ be2 f.tail ++ [flagByte [f.markdownVoid, f.multiVoid, f.unitOver]] ++ List.replicate 10 0

/-- R16: the page check. -/
def Face.check (f : Face) : BitVec 16 :=
  BitVec.ofNat 16 (byteSum f.bodyBytes)

/-- R65: the 32-byte page written by WRITE_PENDING. -/
def Face.page (f : Face) : List Byte :=
  f.bodyBytes ++ be2 f.check.toNat

/-! ### What the label draws (R18) -/

/-- R18: the main price of a drawing. -/
inductive MainLine where
  | price (s : Nat) | withdrawnLegend
deriving DecidableEq, Repr

/-- R18: the second line of a drawing. -/
inductive SecondLine where
  | nothing | struckBase (p : Nat) | offer (n mp : Nat)
deriving DecidableEq, Repr

/-- R18: the unit line of a drawing; dashes stand for the overflow mark. -/
inductive UnitLine where
  | nothing | figure (n : Nat) (code : UnitCode) | dashes (code : UnitCode)
deriving DecidableEq, Repr

/-- R18: what a label draws, prices in minor units, the tail as four digits. -/
structure Drawing where
  main : MainLine
  second : SecondLine
  unit : UnitLine
  tail : Nat
deriving DecidableEq, Repr

/-- R18: the unit line of a face. -/
def unitLine (f : Face) : UnitLine :=
  match f.unitPrice, f.unitCode with
  | .value n, some c => .figure n c
  | .overflow, some c => .dashes c
  | _, _ => .nothing

/-- R18: how a label draws its shown page. -/
def Face.drawing (f : Face) : Drawing :=
  match f.kind with
  | .regular => ⟨.price f.shown, .nothing, unitLine f, f.tail⟩
  | .markdown => ⟨.price f.shown, .struckBase f.base, unitLine f, f.tail⟩
  | .multi => ⟨.price f.shown, (f.multi.map fun p => SecondLine.offer p.1 p.2).getD .nothing, unitLine f, f.tail⟩
  | .withdrawn => ⟨.withdrawnLegend, .nothing, .nothing, f.tail⟩

end Sys2Proof.Machine
end

