-- ==== Sys2Proof/Machine/Sparse.lean ====
section
/-! DEFINITION. Sparse tables in canonical form: numbers strictly rising, none listed with the value
an unlisted number stands for. The bank flash, the directory and the receipt maps are such tables. -/

namespace Sys2Proof.Machine

variable {α : Type}

/-- The value at `i`, `d` where `i` is not listed. -/
def Sparse.get (d : α) : Table α → Nat → α
  | [], _ => d
  | (k, v) :: m, i => if i = k then v else Sparse.get d m i

/-- The table with value `x` at `i`; a value equal to `d` is not listed. -/
def Sparse.put [DecidableEq α] (d : α) : Table α → Nat → α → Table α
  | [], i, x => if x = d then [] else [(i, x)]
  | (k, v) :: m, i, x =>
    if i < k then (if x = d then (k, v) :: m else (i, x) :: (k, v) :: m)
    else if i = k then (if x = d then m else (i, x) :: m)
    else (k, v) :: Sparse.put d m i x

/-- Every listed number is above `low`, the numbers rise strictly, and no value is `d`. -/
def Sparse.wfFrom [DecidableEq α] (d : α) : Nat → Table α → Bool
  | _, [] => true
  | low, (k, v) :: m => low ≤ k && v ≠ d && Sparse.wfFrom d (k + 1) m

/-- The canonical form. -/
def Sparse.wf [DecidableEq α] (d : α) (m : Table α) : Bool :=
  Sparse.wfFrom d 0 m

/-- The table less the numbers that `p` holds of. -/
def Sparse.dropWhere (p : Nat → Bool) (m : Table α) : Table α :=
  m.filter fun c => !p c.1

/-- A list of numbers with `n` inserted in rising order, once. -/
def insertNat (n : Nat) : List Nat → List Nat
  | [] => [n]
  | k :: ks => if n < k then n :: k :: ks else if n = k then k :: ks else k :: insertNat n ks

end Sys2Proof.Machine
end

