-- ==== Sys2Proof/Machine/State.lean ====
section
/-! DEFINITION. The state of the station as plain data, and the state right after reset. -/

namespace Sys2Proof.Machine

/-- R203: the supply and RESET_N. -/
inductive Power where
  /-- No supply. -/
  | off
  /-- RESET_N is low. -/
  | held
  | on
deriving DecidableEq, Repr

/-- R204 to R206: the start phases. -/
inductive Phase where
  | scan | listen | run
deriving DecidableEq, Repr

/-! ### Batch log (file 02) -/

inductive BankId where
  | a | b
deriving DecidableEq, Repr

/-- R22: the role of a bank. -/
inductive Role where
  | none | next | live | retired
deriving DecidableEq, Repr

/-- R26: a mark other than MISSING, which is a number with no entry in the receipt map. -/
inductive Mark where
  | held | stored | unstored
deriving DecidableEq, Repr

/-- R22: the header state, absent being `Option.none`. -/
inductive HeaderState where
  | waiting | written
deriving DecidableEq, Repr

/-- R22: the state of a bank. -/
structure Bank where
  role : Role
  batch : Option Batch
  /-- The record count T, 0 while the batch is absent. -/
  count : Nat
  marks : Table Mark
  eraseList : List Nat
  /-- R21: the sectors that are not clean, ascending. -/
  dirty : List Nat
  header : Option HeaderState
  /-- R25: the count places of the header that are no longer erased, 0 to 11. -/
  placesUsed : List Nat
  /-- R44: the spoiled slots. -/
  spoiled : List Nat
  duplicates : Nat
  beyond : Nat
deriving DecidableEq, Repr

def Bank.blank : Bank :=
  { role := .none, batch := none, count := 0, marks := [], eraseList := [], dirty := []
    header := none, placesUsed := [], spoiled := [], duplicates := 0, beyond := 0 }

/-- A record kept in RAM: in the hold queue (R37) or the unstored list (R41). -/
structure Kept where
  bank : BankId
  seq : Nat
  record : Record
deriving DecidableEq, Repr

/-! ### Log store (R33 to R35) -/

/-- R105: the stored lock modes. -/
inductive StoredMode where
  | open | pin | permanent
deriving DecidableEq, Repr

/-- Who asked for a record read (R33). -/
inductive Reader where
  | answer
  | preload (engine : Fin 4)
  | walk
deriving DecidableEq, Repr

/-- R33: a program or read request. -/
inductive FlashOp where
  | record (bank : BankId) (batch : Batch) (seq : Nat) (content : Record)
  | header (bank : BankId) (batch : Batch) (count : Nat) (live : Bool)
  /-- A role mark programmed to RETIRED, or to LIVE (R24). -/
  | mark (bank : BankId) (retired : Bool)
  | countPlace (bank : BankId) (place : Nat) (count : Nat)
  /-- A home slot's place, `rewrite` when it is of a rewrite's program list (R110). -/
  | place (slot : Nat) (article : Nat) (rewrite : Bool)
  | lockPlace (place : Nat) (mode : StoredMode)
  | read (who : Reader) (batch : Batch) (seq : Nat)
deriving DecidableEq, Repr

/-- What an erase erases. -/
inductive EraseTarget where
  | sector (bank : BankId) (sector : Nat)
  | entries
  | lock
deriving DecidableEq, Repr

/-- R34: how an erase stands. -/
inductive ErasePhase where
  | running (endsAt : Micros)
  | suspending (endsAt : Micros) (suspendAt : Micros)
  | suspended (left : Micros)
deriving DecidableEq, Repr

structure Erase where
  target : EraseTarget
  phase : ErasePhase
deriving DecidableEq, Repr

/-- R33 to R35: the flash engine. -/
structure FlashEngine where
  /-- The request queue, at most 32, the head in service unless an erase runs. -/
  queue : List FlashOp
  /-- Requests waiting for a place, in the order they began to wait. -/
  waiting : List FlashOp
  /-- When the operation in service ends. -/
  doneAt : Option Micros
  erase : Option Erase
  /-- Directory erases asked for and not begun, in the order asked (R35). -/
  dirErases : List EraseTarget
deriving DecidableEq, Repr

/-- What a place of the entries sector holds (R109, R111). -/
inductive PlaceContent where
  | erased | damaged | article (a : Nat)
deriving DecidableEq, Repr

/-- What a lock place holds (R109, R111). -/
inductive LockContent where
  | erased | damaged | mode (m : StoredMode)
deriving DecidableEq, Repr

/-! ### Directory (file 05) -/

/-- R90: the state of an entry. -/
inductive EntryState where
  | vacant | current | staged | preloading | preloaded | swapping | faulted | absent
deriving DecidableEq, Repr

/-- R89: a pending record; the face check is absent while no face has been composed for it (R94). -/
structure PendingRecord where
  batch : Batch
  seq : Nat
  check : Option (BitVec 16)
deriving DecidableEq, Repr

/-- R120: the failure family of a position. -/
inductive Family where
  | none | address | check
deriving DecidableEq, Repr

/-- R89: a directory entry, with what the rules keep beside it for its position. -/
structure Entry where
  article : Option Nat
  serial : Option (BitVec 32)
  state : EntryState
  shown : Option Batch
  pending : Option PendingRecord
  deferred : Option Nat
  attempts : Nat
  missed : Bool
  mismatch : Bool
  markdownVoid : Bool
  multiVoid : Bool
  unitOver : Bool
  refreshStart : Option Micros
  clearWaiting : Bool
  /-- R141. -/
  swapRecord : Option PendingRecord
  /-- R120. -/
  family : Family
  /-- R98. -/
  restage : Bool
deriving DecidableEq, Repr

/-- R91, R172: a VACANT entry with nothing set; what an unlisted slot of the directory holds. -/
def Entry.vacant : Entry :=
  { article := none, serial := none, state := .vacant, shown := none, pending := none
    deferred := none, attempts := 0, missed := false, mismatch := false, markdownVoid := false
    multiVoid := false, unitOver := false, refreshStart := none, clearWaiting := false
    swapRecord := none, family := .none, restage := false }

/-- R109: the place state of a home slot; an unlisted slot is ERASED. -/
inductive PlaceState where
  | erased | written
deriving DecidableEq, Repr

/-- R110: a rewrite of the entries sector. -/
inductive Rewrite where
  | idle
  /-- The erase is asked for and not complete. -/
  | erasing
  /-- The program list, and those of its slots whose program is not yet accepted. -/
  | programming (slots : List Nat) (left : List Nat)
deriving DecidableEq, Repr

/-- R110: the writing of a stored lock mode. -/
inductive LockWork where
  | idle
  /-- A lock program waits to be accepted. -/
  | programming
  /-- The lock sector's erase is asked for and not complete. -/
  | erasing
deriving DecidableEq, Repr

/-- R98: a walk pass. -/
structure Walk where
  targets : List Nat
  /-- The batches of the banks still to walk, the present one first. -/
  batches : List Batch
  /-- The walk of the present bank has dealt with every number up to this one. -/
  reached : Nat
deriving DecidableEq, Repr

/-- The directory's own state beside its entries. -/
structure Directory where
  entries : Table Entry
  places : Table PlaceState
  rewrite : Rewrite
  rewriteAgain : Bool
  storedMode : StoredMode
  sessionLock : Bool
  wel : Bool
  lockUsed : Nat
  lockWork : LockWork
  lockAgain : Bool
  walk : Option Walk
deriving DecidableEq, Repr

/-! ### Trunk interface (file 03) -/

/-- R48: the line state; IDLE with the moment it began, from which slots are counted (R57). -/
inductive LineState where
  | idle (since : Micros)
  | busy
  | quiet
deriving DecidableEq, Repr

/-- R54: who waits for a place of the transmit queue. -/
inductive Producer where
  | feed
  | want (slot : Fin 8)
  | answer (batch : Batch)
  | call
  | echo
  | claim
  | yield
deriving DecidableEq, Repr

/-- Whose a queued frame is, for the reports of R58 to R60. -/
inductive Tag where
  | digest
  | feed
  | want (slot : Fin 8)
  | answer (batch : Batch)
  | call
  | echo
  | claim
  | yield
  /-- A frame whose producer no longer waits for its report; a WANT still counts as sent (R79). -/
  | orphan
deriving DecidableEq, Repr

/-- R54: a frame of the transmit queue. -/
structure QueuedFrame where
  frame : Frame
  tag : Tag
  window : Nat
  attempts : Nat
  /-- The remaining slot count, at the head only. -/
  slots : Option Nat
deriving DecidableEq, Repr

structure Trunk where
  line : LineState
  queue : List QueuedFrame
  waiters : List Producer
  feedGrant : Bool
  /-- When the head's slot count began to run. -/
  counting : Option Micros
  transmitting : Bool
  /-- R53: the moment of the last accepted frame of a station; an unlisted one was never heard. -/
  sources : Table (Option Micros)
  isolated : Bool
  isolationAt : Option Micros
  digestAt : Option Micros
deriving DecidableEq, Repr

/-! ### Repair engine (file 04) -/

/-- R67: the phase of a want slot with its timer. -/
inductive WantPhase where
  | delaying (until_ : Micros)
  | queued
  | sending
  | waiting (until_ : Micros)
deriving DecidableEq, Repr

/-- R67: a want slot that is not FREE; a header slot has the numbers [0]. -/
structure WantSlot where
  batch : Batch
  numbers : List Nat
  attempt : Nat
  phase : WantPhase
deriving DecidableEq, Repr

/-- R80: an answer list. -/
structure AnswerList where
  batch : Batch
  numbers : List Nat
  header : Bool
  timer : Micros
deriving DecidableEq, Repr

/-- R83: an answer run. -/
structure AnswerRun where
  batch : Batch
  numbers : List Nat
  header : Bool
deriving DecidableEq, Repr

/-- R84: an answer PRICE frame whose records are being read; a part not yet returned is `none`. -/
structure AnswerBuild where
  batch : Batch
  parts : List (Nat × Option (Option Record))
deriving DecidableEq, Repr

structure Repair where
  slots : Vector (Option WantSlot) 8
  trailingAt : Option Micros
  answers : List AnswerList
  runs : List AnswerRun
  builds : List AnswerBuild
deriving DecidableEq, Repr

/-! ### Rail link (file 06) -/

/-- R122: the rail states. -/
inductive RailState where
  | unproven | proven | degraded | dead
deriving DecidableEq, Repr

/-- R128: a job of a rail's work list; a PROVE job carries position 0. -/
structure Job where
  kind : JobKind
  pos : Fin 64
  due : Option Micros
  identityDue : Bool
  /-- R130: a CENSUS job has delivered its first report. -/
  delivered : Bool
  /-- R132: the STATUS answer after which the job's IDENT is due. -/
  answered : Option StatusAnswer
  /-- R132: the moment of the job's first STATUS. -/
  firstStatus : Option Micros
  /-- R121: refused, and waiting for its refusal check. -/
  refused : Bool
  /-- Its session is in flight: a job asked for while the session of a withdrawn one runs is not it. -/
  running : Bool
deriving DecidableEq, Repr

/-- R123, R124: a proving under way: the state it began from, the sessions done, and the most
mismatched bits of a window so far. -/
structure Proving where
  began : RailState
  step : Nat
  worst : Nat
deriving DecidableEq, Repr

structure Rail where
  state : RailState
  enabled : Bool
  /-- The power-sense input (R112), a pin level. -/
  power : Bool
  work : List Job
  /-- R126: the fault-burst record. -/
  burst : List Micros
  proving : Option Proving
  /-- R125: when the next proving of a DEAD rail falls due. -/
  reproveAt : Option Micros
  /-- R121: the refusal check due as the rail's next session. -/
  refusal : Option (JobKind × Fin 64)
  /-- R170: the census of a cross rail has begun and its restage marks are not yet set. -/
  censusOpen : Bool
  /-- R170: the slots of adopted entries that this census gave an article. -/
  gave : List Nat
deriving DecidableEq, Repr

/-- What a session of a rail engine is for. -/
inductive SessionKind where
  | job (kind : JobKind)
  /-- The refusal check of a refused job (R121). -/
  | refusalCheck (kind : JobKind)
deriving DecidableEq, Repr

/-- What a rail engine is doing (R131). -/
inductive Activity where
  | idle
  /-- A session; a PRELOAD session with its preload record (R138). -/
  | session (rail : Fin 8) (kind : SessionKind) (pos : Fin 64) (record : Option (Batch × Nat))
  /-- A selected PRELOAD waits for its record to be read (R135). -/
  | fetching (rail : Fin 8) (pos : Fin 64) (batch : Batch) (seq : Nat)
  /-- The rail reset pulse (R114). -/
  | pulse (rail : Fin 8) (endsAt : Micros)
deriving DecidableEq, Repr

/-- A command of the station to a label (R65, R116, R117). -/
inductive LabelCommand where
  | status
  | ident
  | writePending (page : List Byte)
  | swap
  | assign (article : List Byte)
deriving DecidableEq, Repr

structure Engine where
  /-- R131: the alternation pointer; true where it names the cross rail. -/
  cross : Bool
  activity : Activity
  /-- R96, R113, R135: the command of the label session it carries, composed when the session opened and
  sent to its end. -/
  command : Option LabelCommand
deriving DecidableEq, Repr

/-! ### Flip coordinator (R146) -/

structure Hold where
  holdAt : Micros
  gapAt : Micros
deriving DecidableEq, Repr

structure Call where
  batch : Batch
  endsAt : Micros
  tickAt : Micros
deriving DecidableEq, Repr

structure Echo where
  batch : Batch
  endsAt : Micros
  quietAt : Micros
deriving DecidableEq, Repr

structure Flip where
  hold : Option Hold
  call : Option Call
  echo : Option Echo
deriving DecidableEq, Repr

/-! ### Adoption unit (file 08) -/

/-- R162: the holder side. -/
inductive HolderState where
  | watching | claiming | holding | yielding
deriving DecidableEq, Repr

/-- R177, R179: the home side of a rail; TAKING with the end of its 5 ms count, absent while the
line does not read back asserted. -/
inductive HomeSide where
  | undecided
  | waitRelease
  | taking (until_ : Option Micros)
  | own
deriving DecidableEq, Repr

/-- R165: the expiry of the claim guard that began a holding, with the alternation pointers of the
engines as they stood before it. -/
structure HoldStart where
  moment : Micros
  pointers : Vector Bool 4
deriving DecidableEq, Repr

structure Adopt where
  holder : HolderState
  silenceAt : Option Micros
  guardAt : Option Micros
  skip : List (Fin 4)
  /-- R165: how the present holding began. -/
  heldFrom : Option HoldStart
  home : Vector HomeSide 4
  trigger : Option Byte
  waitUntil : Option Micros
deriving DecidableEq, Repr

/-! ### Feed port (file 09) -/

/-- R182: the judgement of a command transaction. -/
inductive Judgement where
  | unknownCommand | badLength | wellFormed
deriving DecidableEq, Repr

/-- R183: a buffered command transaction. -/
structure Transaction where
  bytes : List Byte
  judgement : Judgement
deriving DecidableEq, Repr

/-- R188: the result codes (R65), NONE being no result. -/
inductive ResultCode where
  | done | refusedLock | refusedWel | badRange | badLength | oldBatch | notNext | noBatch
  | unknownCommand | none
deriving DecidableEq, Repr

/-- R188: a result. -/
structure Result where
  echo : Byte
  code : ResultCode
  body : List Byte
deriving DecidableEq, Repr

/-- R189: what the transaction in progress has chosen to send. -/
inductive Choice where
  /-- Nothing, so far or for good. -/
  | nothing
  /-- The empty form. -/
  | empty
  /-- The oldest result. -/
  | oldest
deriving DecidableEq, Repr

structure Feed where
  /-- R180: the transaction in progress: FSEL_N has fallen and no reset has ended it (R181). -/
  txn : Option Choice
  buffer : List Transaction
  results : List Result
  overrun : Bool
deriving DecidableEq, Repr

/-! ### Status unit (R208, R210) -/

structure Counters where
  framesReceived : Nat
  crcErrors : Nat
  collisions : Nat
  framesDropped : Nat
  wantsSent : Nat
  wantsSuppressed : Nat
  givesSent : Nat
  answersTrimmed : Nat
  holdDrops : Nat
  preloadsDone : Nat
  swapsDone : Nat
  labelFaults : Nat
  callsIgnored : Nat
deriving DecidableEq, Repr

def Counters.zero : Counters := ⟨0, 0, 0, 0, 0, 0, 0, 0, 0, 0, 0, 0, 0⟩

structure Alerts where
  railDead : Bool
  entryFault : Bool
  adoption : Bool
  isolated : Bool
  duplicate : Bool
  holdOverflow : Bool
  missed : Bool
  mismatch : Bool
deriving DecidableEq, Repr

def Alerts.clear : Alerts := ⟨false, false, false, false, false, false, false, false⟩

/-! ### The station -/

structure State where
  /-- The commands that wait, first in, first out. -/
  pending : List Instr
  /-- The clock (log entry 3). -/
  now : Micros
  /-- How many free values have been taken (log entries 6 and 7). -/
  draws : Nat
  power : Power
  phase : Phase
  listenUntil : Option Micros
  straps : Straps
  /-- The bank flash: byte address and byte; an unlisted address reads 0xFF (log entry 2). -/
  mem : List Host.Cell
  /-- The entries sector; an unlisted place is erased. -/
  dirFlash : Table PlaceContent
  /-- The lock sector; an unlisted place is erased. -/
  lockFlash : Table LockContent
  bankA : Bank
  bankB : Bank
  holdQueue : List Kept
  unstored : List Kept
  flash : FlashEngine
  dir : Directory
  trunk : Trunk
  repair : Repair
  rails : Vector Rail 8
  engines : Vector Engine 4
  flip : Flip
  adopt : Adopt
  /-- R203: RESET_N is low; the level is the pin's own, with the supply off too (log entry 29). -/
  resetLow : Bool
  /-- R180: FSEL_N is low; the level is the pin's own (log entry 40). -/
  fselLow : Bool
  feed : Feed
  counters : Counters
  alerts : Alerts
deriving DecidableEq, Repr

/-- Why the machine stops. The spec describes no event that stops the station, so there is no reason
and no command ends so. -/
inductive Fault where
deriving DecidableEq, Repr

/-- Why a command has no meaning. -/
inductive Refusal where
  /-- The command is not modelled; raised by no arm of `exec`, every command having its meaning. Safe. -/
  | notModelled (mnemonic : String)
deriving DecidableEq, Repr

/-! ### Reset -/

/-- R112, R122: a rail after a reset; the power-sense level is the pin's own. -/
def Rail.reset (power : Bool) : Rail :=
  { state := .unproven, enabled := false, power := power, work := [], burst := [], proving := none
    reproveAt := none, refusal := none, censusOpen := false, gave := [] }

def FlashEngine.reset : FlashEngine :=
  { queue := [], waiting := [], doneAt := none, erase := none, dirErases := [] }

/-- R91, R104, R105: the directory after a reset, before SCAN has read its flash. -/
def Directory.reset (sessionLock : Bool) : Directory :=
  { entries := [], places := [], rewrite := .idle, rewriteAgain := false, storedMode := .open
    sessionLock := sessionLock, wel := false, lockUsed := 0, lockWork := .idle, lockAgain := false
    walk := none }

/-- R63. -/
def Trunk.reset : Trunk :=
  { line := .quiet, queue := [], waiters := [], feedGrant := false, counting := none
    transmitting := false, sources := [], isolated := false, isolationAt := none, digestAt := none }

/-- R66. -/
def Repair.reset : Repair :=
  { slots := Vector.replicate 8 none, trailingAt := none, answers := [], runs := [], builds := [] }

/-- R131: the pointer names H_k. -/
def Engine.reset : Engine := { cross := false, activity := .idle, command := none }

/-- R146. -/
def Flip.reset : Flip := { hold := none, call := none, echo := none }

/-- R162, R177. -/
def Adopt.reset : Adopt :=
  { holder := .watching, silenceAt := none, guardAt := none, skip := []
    heldFrom := none, home := Vector.replicate 4 .undecided, trigger := none, waitUntil := none }

/-- R181, R183, R187, R188. -/
def Feed.reset : Feed := { txn := none, buffer := [], results := [], overrun := false }

/-- Log entry 1: the strap levels of State.reset. -/
def Straps.low : Straps := { stn := 0, ptn := 0, xw := false, kb := 0 }

/-- The station right after a power-on reset (R203): in SCAN, every queue, timer, list and table at
its reset value, the flash erased (log entry 2), the straps low (log entry 1), RESET_N high
(log entry 29). -/
def State.reset : State :=
  { pending := [], now := 0, draws := 0, power := .on, phase := .scan, listenUntil := none
    straps := Straps.low, mem := [], dirFlash := [], lockFlash := []
    bankA := Bank.blank, bankB := Bank.blank, holdQueue := [], unstored := []
    flash := FlashEngine.reset, dir := Directory.reset false, trunk := Trunk.reset
    repair := Repair.reset, rails := Vector.replicate 8 (Rail.reset true)
    engines := Vector.replicate 4 Engine.reset, flip := Flip.reset, adopt := Adopt.reset
    resetLow := false, fselLow := false, feed := Feed.reset, counters := Counters.zero, alerts := Alerts.clear }

end Sys2Proof.Machine
end

