-- ==== Sys2Proof/Machine/Ops.lean ====
section
/-! DEFINITION. The operations all blocks share: clock, random draws, counters, banks, bank flash,
the flash engine's requests, the transmit queue's places, work lists and rail ports. -/

namespace Sys2Proof.Machine

open Sys2Proof.Config

/-! ### Clock and random draws -/

/-- The moment of a command; the clock never runs back (log entry 3). -/
def State.at (s : State) (t : Micros) : State :=
  { s with now := max s.now t }

/-- A timer that runs has expired. -/
def expired (deadline : Option Micros) (s : State) : Bool :=
  match deadline with
  | some d => d ≤ s.now
  | none => false

/-- The next free value, reduced into `lo..hi` (log entry 6). -/
def drawn (lo hi : Nat) (s : State) : Nat :=
  lo + draw s.draws % (hi - lo + 1)

/-- The free value is taken. -/
def State.drew (s : State) : State :=
  { s with draws := s.draws + 1 }

/-! ### Counters -/

/-- R208: a counter goes up by 1 and stops at 65,535. -/
def bump (n : Nat) : Nat :=
  if n < counterTop then n + 1 else n

/-! ### Straps (R201, R202) -/

/-- R202: a station number strap of 255 gives station number 0. -/
def State.station (s : State) : Byte :=
  if s.straps.stn = 255 then 0 else s.straps.stn

/-- R64: listen-only. -/
def State.listenOnly (s : State) : Bool :=
  s.station = 0

/-- R201: the refresh budget K. -/
def State.budget (s : State) : Nat :=
  match s.straps.kb.toNat with
  | 0 => 4 | 1 => 6 | 2 => 8 | _ => 12

/-- R162, R202: adoption is active. -/
def State.adoptionActive (s : State) : Bool :=
  s.straps.xw && s.straps.ptn ≠ 0 && s.straps.ptn ≠ 255 && s.straps.ptn ≠ s.station && s.station ≠ 0

/-! ### Batches and banks (R19, R20, R26) -/

/-- R19: batch `a` is newer than batch `b`. -/
def newer (a b : Batch) : Bool :=
  1 ≤ (a - b).toNat && (a - b).toNat ≤ 32767

def State.bank (s : State) : BankId → Bank
  | .a => s.bankA
  | .b => s.bankB

def State.setBank (s : State) (i : BankId) (k : Bank) : State :=
  match i with
  | .a => { s with bankA := k }
  | .b => { s with bankB := k }

def BankId.other : BankId → BankId
  | .a => .b
  | .b => .a

/-- The bank in a role. -/
def State.bankIn (s : State) (r : Role) : Option BankId :=
  if s.bankA.role = r then some .a else if s.bankB.role = r then some .b else none

/-- R20: the live batch. -/
def State.liveBatch (s : State) : Option Batch :=
  (s.bankIn .live).bind fun i => (s.bank i).batch

/-- R20: the next batch. -/
def State.nextBatch (s : State) : Option Batch :=
  (s.bankIn .next).bind fun i => (s.bank i).batch

/-- The bank in role NEXT or LIVE that carries batch `b`. -/
def State.bankOf (s : State) (b : Batch) : Option BankId :=
  if s.nextBatch = some b then s.bankIn .next
  else if s.liveBatch = some b then s.bankIn .live
  else none

/-- `b` is newer than an optional batch, or that batch is absent. -/
def newerThan (b : Batch) (x : Option Batch) : Bool :=
  match x with
  | some y => newer b y
  | none => true

/-- R27, R29, R69, R149, R190: newer than the next batch, or there is none, and newer than the live
batch, or there is none. -/
def State.newerThanBoth (s : State) (b : Batch) : Bool :=
  newerThan b s.nextBatch && newerThan b s.liveBatch

/-- R26: the mark of a sequence number, none for MISSING. -/
def Bank.mark (k : Bank) (n : Nat) : Option Mark :=
  (k.marks.find? fun c => c.1 = n).map Prod.snd

/-- R26: the held count. -/
def Bank.held (k : Bank) : Nat :=
  k.marks.length

/-- R26: the bank's batch is complete. -/
def Bank.complete (k : Bank) : Bool :=
  k.held = k.count

/-- A receipt map with a mark set, in rising order. -/
def setMarkIn (n : Nat) (m : Mark) : Table Mark → Table Mark
  | [] => [(n, m)]
  | (k, v) :: ms =>
    if n < k then (n, m) :: (k, v) :: ms else if n = k then (n, m) :: ms else (k, v) :: setMarkIn n m ms

def Bank.setMark (k : Bank) (n : Nat) (m : Mark) : Bank :=
  { k with marks := setMarkIn n m k.marks }

/-- The numbers of `lo..lo+fuel-1` that a rising receipt map does not list. -/
def missingIn : Nat → Nat → Table Mark → List Nat
  | 0, _, _ => []
  | fuel + 1, lo, [] => lo :: missingIn fuel (lo + 1) []
  | fuel + 1, lo, (k, v) :: ms =>
    if k = lo then missingIn fuel (lo + 1) ms else lo :: missingIn fuel (lo + 1) ((k, v) :: ms)

/-- R26: the MISSING numbers, ascending. -/
def Bank.missing (k : Bank) : List Nat :=
  missingIn k.count 1 k.marks

/-- R61: the lowest MISSING number. -/
def Bank.lowestMissing (k : Bank) : Option Nat :=
  k.missing.head?

/-! ### Bank flash (R21, R65) -/

/-- Section 2.2: the sector of a slot. -/
def sectorOf (slot : Nat) : Nat := slot / 128

/-- The address of a slot's first byte. -/
def slotAddr (i : BankId) (slot : Nat) : Nat :=
  (match i with | .a => 0 | .b => 1048576) + 32 * slot

/-- R65: a byte of flash; an erased one reads 0xFF. -/
def flashByte (m : List Host.Cell) (a : Nat) : Byte :=
  Sparse.get 0xFF#8 m a

/-- The 32 bytes of a slot. -/
def readSlot (m : List Host.Cell) (i : BankId) (slot : Nat) : List Byte :=
  (List.range 32).map fun k => flashByte m (slotAddr i slot + k)

/-- Programming clears bits and sets none (section 2.2, R65). -/
def programByte (m : List Host.Cell) (a : Nat) (b : Byte) : List Host.Cell :=
  Sparse.put 0xFF#8 m a (flashByte m a &&& b)

def programBytes : List Host.Cell → Nat → List Byte → List Host.Cell
  | m, _, [] => m
  | m, a, b :: bs => programBytes (programByte m a b) (a + 1) bs

/-- An address lies in a bank sector. -/
def inSector (i : BankId) (sector : Nat) (a : Nat) : Bool :=
  slotAddr i (128 * sector) ≤ a && a < slotAddr i (128 * sector) + 4096

/-- An erase leaves every byte of the sector erased. -/
def eraseSector (m : List Host.Cell) (i : BankId) (sector : Nat) : List Host.Cell :=
  Sparse.dropWhere (inSector i sector) m

/-- R65: the first seven bytes of a header: batch, header check, role mark, first count place. -/
def headerBytes (batch : Batch) (count : Nat) (live : Bool) : List Byte :=
  let b := be2 batch.toNat
  let c := be2 count
  b ++ be2 (byteSum (b ++ c)) ++ [if live then 0xF0#8 else 0xFF#8] ++ c

/-- The bytes a program request puts into the bank flash, with their first address. -/
def opBytes : FlashOp → Option (Nat × List Byte)
  | .record i _ n c => some (slotAddr i n, c)
  | .header i b t live => some (slotAddr i 0, headerBytes b t live)
  | .mark i retired => some (slotAddr i 0 + 4, [if retired then 0x00#8 else 0xF0#8])
  | .countPlace i p t => some (slotAddr i 0 + 5 + 2 * p, be2 t)
  | .place .. => none
  | .lockPlace .. => none
  | .read .. => none

/-- The time of a request (R33). -/
def opTime : FlashOp → Micros
  | .read .. => readTime
  | _ => programTime

/-- What a finished program leaves in flash. -/
def programEffect (op : FlashOp) (s : State) : State :=
  match op with
  | .place slot a _ => { s with dirFlash := Sparse.put .erased s.dirFlash slot (.article a) }
  | .lockPlace p m => { s with lockFlash := Sparse.put .erased s.lockFlash p (.mode m) }
  | op =>
    match opBytes op with
    | some (a, bs) => { s with mem := programBytes s.mem a bs }
    | none => s

/-! ### Records by batch and number (R40) -/

/-- The content of a record program in a list of requests, the last one first. -/
def recordIn (i : BankId) (n : Nat) : List FlashOp → Option Record
  | [] => none
  | .record j _ k c :: ops => (recordIn i n ops).or (if j = i ∧ k = n then some c else none)
  | _ :: ops => recordIn i n ops

def keptIn (i : BankId) (n : Nat) (l : List Kept) : Option Record :=
  (l.find? fun k => k.bank = i ∧ k.seq = n).map Kept.record

/-- R40: the content of record `n` of batch `b`, wherever it is kept. -/
def State.record (s : State) (b : Batch) (n : Nat) : Option Record :=
  match s.bankOf b with
  | none => none
  | some i =>
    match (s.bank i).mark n with
    | some .stored => (recordIn i n s.flash.queue).or (some (readSlot s.mem i n))
    | some .held => (keptIn i n s.holdQueue).or (recordIn i n s.flash.waiting)
    | some .unstored => keptIn i n s.unstored
    | none => none

/-- R8: the face of record `n` of batch `b`. -/
def State.face (s : State) (b : Batch) (n : Nat) : Option Face :=
  (s.record b n).bind faceOf

/-! ### The flash engine's requests (R33, R34) -/

/-- R21: a sector becomes dirty. -/
def Bank.soil (k : Bank) (sector : Nat) : Bank :=
  { k with dirty := insertNat sector k.dirty }

/-- R32: a record program is accepted: its mark becomes STORED. A bank retired meanwhile has no map. -/
def acceptRecord (i : BankId) (b : Batch) (n : Nat) (s : State) : State :=
  let k := (s.bank i).soil (sectorOf n)
  if (k.role = .next ∨ k.role = .live) ∧ k.batch = some b then s.setBank i (k.setMark n .stored)
  else s.setBank i k

/-- R110: a program of a home place is accepted: the place becomes WRITTEN and a rewrite has one
program less to wait for. -/
def acceptPlace (slot : Nat) (rewrite : Bool) (s : State) : State :=
  let d := { s.dir with places := Sparse.put .erased s.dir.places slot .written }
  match rewrite, d.rewrite with
  | true, .programming slots left =>
    let left := left.filter (· ≠ slot)
    { s with dir := { d with rewrite := if left = [] then .idle else .programming slots left } }
  | _, _ => { s with dir := d }

/-- What the acceptance of a request by the log store changes (R21, R32, R110). -/
def flashAccept (op : FlashOp) (s : State) : State :=
  match op with
  | .record i b n _ => acceptRecord i b n s
  | .header i _ _ _ => s.setBank i ((s.bank i).soil 0)
  | .mark i _ => s.setBank i ((s.bank i).soil 0)
  | .countPlace i _ _ => s.setBank i ((s.bank i).soil 0)
  | .place slot _ rewrite => acceptPlace slot rewrite s
  | .lockPlace _ _ => { s with dir := { s.dir with lockWork := .idle } }
  | .read .. => s

/-- R34: a request arrives during an erase. -/
def Erase.arrival (now : Micros) (e : Erase) : Erase :=
  match e.phase with
  | .running ends => { e with phase := .suspending ends (now + suspendTime) }
  | _ => e

/-- A request takes a place of the queue. -/
def flashPush (op : FlashOp) (s : State) : State :=
  let s := flashAccept op s
  { s with flash := { s.flash with
      queue := s.flash.queue ++ [op], erase := s.flash.erase.map (Erase.arrival s.now) } }

/-- R33: a request joins the queue, or waits for a place behind those that wait. -/
def flashRequest (op : FlashOp) (s : State) : State :=
  if s.flash.queue.length < flashPlaces ∧ s.flash.waiting = [] then flashPush op s
  else { s with flash := { s.flash with waiting := s.flash.waiting ++ [op] } }

/-- Several requests, in order. -/
def flashRequests : List FlashOp → State → State
  | [], s => s
  | op :: ops, s => flashRequests ops (flashRequest op s)

/-! ### The next erase (R35) -/

/-- R35 (2): the place in the hold queue of the oldest record for a bank's front sector. -/
def heldFront (s : State) (i : BankId) : Option Nat :=
  match (s.bank i).eraseList with
  | [] => none
  | f :: _ => s.holdQueue.findIdx? fun k => k.bank = i ∧ sectorOf k.seq = f

/-- R35 (2): the bank whose front sector holds the oldest held record. -/
def heldErase (s : State) : Option BankId :=
  match heldFront s .a, heldFront s .b with
  | some m, some n => some (if m < n then .a else .b)
  | some _, none => some .a
  | none, some _ => some .b
  | none, none => none

/-- R35 (3): sector 0 of a WAITING bank, at the front of its list, the NEXT bank first. -/
def waitingErase (s : State) : Option BankId :=
  let fits := fun i => (s.bank i).header = some .waiting && (s.bank i).eraseList.head? = some 0
  [Role.next, .live, .retired, .none].findSome? fun r =>
    [BankId.a, .b].find? fun i => (s.bank i).role = r ∧ fits i

/-- R35 (4): the first bank by role, A before B, that has a sector to erase. -/
def roleErase (s : State) : Option BankId :=
  [Role.next, .live, .retired, .none].findSome? fun r =>
    [BankId.a, .b].find? fun i => (s.bank i).role = r ∧ (s.bank i).eraseList ≠ []

/-- R35: what the idle engine erases next. -/
def nextErase (s : State) : Option EraseTarget :=
  match s.flash.dirErases with
  | t :: _ => some t
  | [] =>
    match (heldErase s).or ((waitingErase s).or (roleErase s)) with
    | none => none
    | some i => (s.bank i).eraseList.head?.map (.sector i)

/-- R33: the head of the queue is taken into service. -/
def serveHead (s : State) : State :=
  match s.flash.queue, s.flash.doneAt with
  | op :: _, none => { s with flash := { s.flash with doneAt := some (s.now + opTime op) } }
  | _, _ => s

/-- R33 to R35: the engine, where nothing keeps it busy, serves the queue, resumes a suspended erase
or starts the next one. -/
def flashSettle (s : State) : State :=
  match s.flash.erase with
  | some ⟨_, .running _⟩ => s
  | some ⟨_, .suspending _ _⟩ => s
  | some ⟨t, .suspended left⟩ =>
    if s.flash.queue = [] then
      { s with flash := { s.flash with erase := some ⟨t, .running (s.now + left)⟩ } }
    else serveHead s
  | none =>
    if s.flash.queue = [] then
      match nextErase s with
      | none => s
      | some t => { s with flash := { s.flash with
          erase := some ⟨t, .running (s.now + eraseTime)⟩
          dirErases := s.flash.dirErases.filter (· ≠ t) } }
    else serveHead s

/-! ### The transmit queue (R49, R54, R57) -/

/-- R49: the urgent kinds. -/
def urgent : Frame → Bool
  | .flip .. => true
  | .claim _ => true
  | .yield _ => true
  | _ => false

/-- R49: the window a frame starts with. -/
def firstWindow (f : Frame) : Nat := if urgent f then 4 else 16

/-- R58: the largest window of a frame. -/
def lastWindow (f : Frame) : Nat := if urgent f then 64 else 512

/-- Places of the queue in use: frames, the place granted to the feed port (R185), and those of
answer frames being built (R84). -/
def placesTaken (s : State) : Nat :=
  s.trunk.queue.length + (if s.trunk.feedGrant then 1 else 0) + s.repair.builds.length

def placeFree (s : State) : Bool :=
  placesTaken s < transmitPlaces

/-- R54: a frame joins at the tail. -/
def enqueueFrame (tag : Tag) (f : Frame) (s : State) : State :=
  { s with trunk := { s.trunk with
      queue := s.trunk.queue ++ [⟨f, tag, firstWindow f, 0, none⟩] } }

/-- R54, R56: frames leave the queue without being counted; a new head starts afresh. A frame in
transmission does not leave so. -/
def dropFrames (p : QueuedFrame → Bool) (s : State) : State :=
  match s.trunk.queue with
  | [] => s
  | h :: q =>
    if p h ∧ ¬ s.trunk.transmitting then
      { s with trunk := { s.trunk with queue := q.filter fun f => !p f, counting := none } }
    else { s with trunk := { s.trunk with queue := h :: q.filter fun f => !p f } }

/-- Frames keep their places under another tag. -/
def retag (p : QueuedFrame → Bool) (t : Tag) (s : State) : State :=
  { s with trunk := { s.trunk with
      queue := s.trunk.queue.map fun f => if p f then { f with tag := t } else f } }

/-- A producer gives up its wait for a place. -/
def dropWaiter (p : Producer) (s : State) : State :=
  { s with trunk := { s.trunk with waiters := s.trunk.waiters.filter (· ≠ p) } }

/-- R57: slot boundaries passed from `start` to `now` on a line IDLE since `since`. -/
def slotsPassed (since start now : Micros) : Nat :=
  (now - since) / slotTime - (start - since) / slotTime

/-- R57: the head contends once the line is IDLE in RUN: it draws its slot count, or goes on with a
frozen one. -/
def contend (s : State) : State :=
  match s.phase, s.trunk.line, s.trunk.queue, s.trunk.counting with
  | .run, .idle _, h :: q, none =>
    if s.trunk.transmitting then s
    else
      match h.slots with
      | some _ => { s with trunk := { s.trunk with counting := some s.now } }
      | none =>
        { s.drew with trunk := { s.trunk with
            queue := { h with slots := some (drawn 0 (h.window - 1) s) } :: q
            counting := some s.now } }
  | _, _, _, _ => s

/-! ### Rails, slots of the directory and work lists (R88, R128) -/

/-- R88: the directory slot of a rail position. -/
def slotOf (r : Fin 8) (p : Fin 64) : Nat := r.val * 64 + p.val

/-- R88: the rail of a directory slot. -/
def railOf (i : Nat) : Fin 8 := Fin.ofNat 8 (i / 64)

/-- R88: the position of a directory slot. -/
def posOf (i : Nat) : Fin 64 := Fin.ofNat 64 i

def isCross (r : Fin 8) : Bool := 4 ≤ r.val

/-- Rail engine k serves H_k and X_k. -/
def engineOf (r : Fin 8) : Fin 4 := Fin.ofNat 4 r.val

def homeRail (k : Fin 4) : Fin 8 := ⟨k.val, by omega⟩
def crossRail (k : Fin 4) : Fin 8 := ⟨k.val + 4, by omega⟩

def State.rail (s : State) (r : Fin 8) : Rail := s.rails[r]

def State.setRail (s : State) (r : Fin 8) (x : Rail) : State :=
  { s with rails := s.rails.set r x }

def State.engine (s : State) (k : Fin 4) : Engine := s.engines[k]

def State.setEngine (s : State) (k : Fin 4) (e : Engine) : State :=
  { s with engines := s.engines.set k e }

/-- An engine turns to what is no label session. -/
def State.setActivity (s : State) (k : Fin 4) (a : Activity) : State :=
  s.setEngine k { s.engine k with activity := a, command := none }

/-- The rail an activity is on. -/
def Activity.rail? : Activity → Option (Fin 8)
  | .idle => none
  | .session r _ _ _ => some r
  | .fetching r _ _ _ => some r
  | .pulse r _ => some r

/-- A session is in flight on a rail. -/
def inSession (s : State) (r : Fin 8) : Bool :=
  match (s.engine (engineOf r)).activity with
  | .session r' _ _ _ => r' = r
  | _ => false

def Job.isFor (k : JobKind) (p : Fin 64) (j : Job) : Bool :=
  j.kind = k ∧ j.pos = p

def Job.make (k : JobKind) (p : Fin 64) (due : Option Micros) : Job :=
  { kind := k, pos := p, due := due, identityDue := false, delivered := false, answered := none
    firstStatus := none, refused := false, running := false }

def Rail.job? (r : Rail) (k : JobKind) (p : Fin 64) : Option Job :=
  r.work.find? (Job.isFor k p)

/-- R128: a job joins the list; one already on it stays as it stands. -/
def Rail.ask (k : JobKind) (p : Fin 64) (due : Option Micros) (r : Rail) : Rail :=
  if r.work.any (Job.isFor k p) then r else { r with work := r.work ++ [Job.make k p due] }

/-- Jobs leave the list; a refusal check for one of them is not run (R121). -/
def Rail.withdraw (q : Job → Bool) (r : Rail) : Rail :=
  { r with
    work := r.work.filter fun j => !q j
    refusal := r.refusal.filter fun kp => !(r.work.any fun j => q j && Job.isFor kp.1 kp.2 j) }

/-- A job of the list changes. -/
def Rail.updateJob (k : JobKind) (p : Fin 64) (f : Job → Job) (r : Rail) : Rail :=
  { r with work := r.work.map fun j => if Job.isFor k p j then f j else j }

/-- R173: the kinds not entered on a cross rail while YIELDING. -/
def yieldBars : JobKind → Bool
  | .preload => true
  | .swap => true
  | .census => true
  | .revisit => true
  | _ => false

/-- R96, R128, R173: a job is asked for. No PRELOAD is asked on a DEAD rail. -/
def askJob (r : Fin 8) (k : JobKind) (p : Fin 64) (due : Option Micros) (s : State) : State :=
  if isCross r ∧ s.adopt.holder = .yielding ∧ yieldBars k then s
  else if k = .preload ∧ (s.rail r).state = .dead then s
  else s.setRail r ((s.rail r).ask k p due)

/-- Jobs of a position are withdrawn, those of the kinds `q` holds of; PROVE names no position. -/
def withdrawJobs (r : Fin 8) (p : Fin 64) (q : JobKind → Bool) (s : State) : State :=
  s.setRail r ((s.rail r).withdraw fun j => j.pos = p && j.kind ≠ .prove && q j.kind)

/-- R121, R122: a proving falls due: PROVE joins the list; a refusal check still due is not run, and
its job is eligible again under R129. -/
def Rail.prove (r : Rail) : Rail :=
  let r := match r.refusal with
    | some (k, p) => r.updateJob k p fun j => { j with refused := false }
    | none => r
  { r with refusal := none }.ask .prove 0 none

/-- R122: a proving is due on an UNPROVEN rail that is enabled with power present. -/
def Rail.proveIfUnproven (r : Rail) : Rail :=
  if r.enabled ∧ r.power ∧ r.state = .unproven then r.prove else r

/-- A proving is due or under way. -/
def Rail.proveDue (r : Rail) : Bool :=
  r.work.any (Job.isFor .prove 0)

/-- R112: a port is disabled: its rail becomes UNPROVEN, its work list is emptied. -/
def Rail.disable (r : Rail) : Rail :=
  { Rail.reset r.power with burst := r.burst }

/-- R112: a port is disabled; a session in flight on it is abandoned. -/
def disablePort (r : Fin 8) (s : State) : State :=
  let s := s.setRail r (s.rail r).disable
  if (s.engine (engineOf r)).activity.rail? = some r then s.setActivity (engineOf r) .idle else s

/-- R112, R122: a port is enabled; its rail is proved afresh. -/
def enablePort (r : Fin 8) (s : State) : State :=
  s.setRail r { (s.rail r) with enabled := true, state := .unproven }.proveIfUnproven

end Sys2Proof.Machine
end

