-- ==== Sys2Proof/Machine/Directory.lean ====
section
/-! DEFINITION. The label directory: entries, staging, label reports, commissioning, storage and the
restaging walk (file 05, R88 to R111), with the entry side of preload and swap (R139 to R142). -/

namespace Sys2Proof.Machine

open Sys2Proof.Config

/-! ### Entries and their jobs -/

/-- The entry of a slot. -/
def State.entry (s : State) (i : Nat) : Entry :=
  Sparse.get Entry.vacant s.dir.entries i

def State.setEntry (s : State) (i : Nat) (e : Entry) : State :=
  { s with dir := { s.dir with entries := Sparse.put Entry.vacant s.dir.entries i e } }

/-- The slots whose entries `p` holds of; `p` holds of no cleared VACANT entry. -/
def State.slotsWhere (s : State) (p : Entry → Bool) : List Nat :=
  s.dir.entries.filterMap fun c => if p c.2 then some c.1 else none

/-- R139: ready to swap. -/
def readyToSwap (s : State) (e : Entry) : Bool :=
  match e.pending with
  | some p => e.state = .preloaded && s.liveBatch = some p.batch
  | none => false

/-- Jobs of a slot's position are withdrawn. -/
def withdrawAt (i : Nat) (q : JobKind → Bool) (s : State) : State :=
  withdrawJobs (railOf i) (posOf i) q s

/-- A job is asked for a slot's position. -/
def askAt (i : Nat) (k : JobKind) (due : Option Micros) (s : State) : State :=
  askJob (railOf i) k (posOf i) due s

/-- R96, R100, R139: the jobs an entry in this state may not keep. -/
def staleJob (s : State) (e : Entry) : JobKind → Bool
  | .preload => e.state ≠ .staged && e.state ≠ .preloading
  | .swap => !readyToSwap s e
  | .poll => e.state ≠ .swapping
  | _ => false

/-- R96, R139: the jobs of an entry that has come from state `before`: those it may not keep are
withdrawn; entering STAGED asks for a PRELOAD, being ready to swap for a SWAP. -/
def entryJobs (i : Nat) (before : EntryState) (s : State) : State :=
  let e := s.entry i
  let s := withdrawAt i (staleJob s e) s
  if e.state = .staged ∧ before ≠ .staged then askAt i .preload none s
  else if readyToSwap s e then askAt i .swap none s
  else s

/-- R108: an entry becomes VACANT: its fields absent, its flags clear, its jobs withdrawn. -/
def vacateEntry (i : Nat) (s : State) : State :=
  let e := s.entry i
  withdrawAt i (fun _ => true)
    (s.setEntry i { Entry.vacant with family := e.family, restage := e.restage })

/-- R141: what goes with SWAPPING is removed when the entry is not in it. -/
def Entry.leaveSwapping (e : Entry) : Entry :=
  if e.state = .swapping then e
  else { e with refreshStart := none, swapRecord := none, clearWaiting := false }

/-- An entry changes. Where it leaves SWAPPING with its clear-waiting mark set it becomes VACANT in
place of the state the leaving rule gives (R108). -/
def moveEntry (i : Nat) (e : Entry) (s : State) : State :=
  let before := (s.entry i).state
  if before = .swapping ∧ e.state ≠ .swapping ∧ e.clearWaiting then vacateEntry i s
  else entryJobs i before (s.setEntry i e.leaveSwapping)

/-- R92: the face flags of an entry are replaced by those of a face composed for it. -/
def Entry.takeFace (e : Entry) (f : Option Face) : Entry :=
  match f with
  | some f => { e with markdownVoid := f.markdownVoid, multiVoid := f.multiVoid, unitOver := f.unitOver }
  | none => e

/-- R92: a record becomes the pending record and its face is composed. -/
def Entry.pend (e : Entry) (b : Batch) (n : Nat) (f : Option Face) : Entry :=
  { e with pending := some ⟨b, n, f.map Face.check⟩ }.takeFace f

/-- R95: the pending record is removed from an entry in service; the deferred record, of batch `b`,
takes its place. -/
def resolvePending (s : State) (b : Option Batch) (e : Entry) : Entry :=
  match e.deferred, b with
  | some d, some b => { e with deferred := none, state := .staged }.pend b d (s.face b d)
  | _, _ => { e with pending := none, deferred := none, state := .current }

/-! ### Staging (R92 to R94) -/

/-- R93: what a record does to the pending and deferred fields of an entry. -/
inductive Combining where
  | nothing
  /-- It becomes the pending record, with this deferred number. -/
  | pends (deferred : Option Nat)
  /-- It becomes the deferred number. -/
  | defers (n : Nat)
deriving DecidableEq, Repr

/-- R93: the row that fits record `n` of batch `b`, which is the next or the live batch. -/
def combining (live next : Option Batch) (b : Batch) (n : Nat) (e : Entry) : Combining :=
  match e.pending with
  | none => .pends e.deferred
  | some p =>
    if p.batch = b then (if n ≤ p.seq then .nothing else .pends e.deferred)
    else if live = some p.batch ∧ next = some b then .defers (max (e.deferred.getD 0) n)
    else if next = some p.batch ∧ live = some b then .pends (some p.seq)
    else .nothing

/-- R93: the state an entry in service takes with a new pending record. -/
def stagedState : EntryState → EntryState
  | .preloading => .preloading
  | .swapping => .swapping
  | _ => .staged

/-- R93, R94: record `n` of batch `b` with its face is combined into an entry. -/
def combineEntry (s : State) (b : Batch) (n : Nat) (f : Face) (e : Entry) : Entry :=
  match combining s.liveBatch s.nextBatch b n e with
  | .nothing => e
  | .defers d => { e with deferred := some d }
  | .pends d =>
    if e.state = .absent ∨ e.state = .faulted then
      { e with pending := some ⟨b, n, none⟩, deferred := d }
    else { e with deferred := d, state := stagedState e.state }.pend b n (some f)

/-- R92: an entry sells article `a` and takes records. Records are not staged onto an entry whose
clear-waiting mark is set (R108). -/
def takesArticle (a : Nat) (e : Entry) : Bool :=
  e.article = some a && e.state ≠ .vacant && !e.clearWaiting

def stageEntry (b : Batch) (n : Nat) (f : Face) (i : Nat) (s : State) : State :=
  moveEntry i (combineEntry s b n f (s.entry i)) s

/-- R92: record `n` of batch `b` is staged onto the entries of its article that `p` admits. A record
of a batch that is neither next nor live has no effect, and one that fails the validity test, which only the
scan can leave STORED, stages nothing (log entry 59). -/
def stageWhere (p : Nat → Bool) (b : Batch) (n : Nat) (r : Record) (s : State) : State :=
  if (s.bankOf b).isNone then s
  else
    match judgeRecord r with
    | .error _ => s
    | .ok x =>
      ((s.slotsWhere (takesArticle x.article)).filter p).foldl
        (fun s i => stageEntry b n (compose x) i s) s

/-- R92: a record that has become held is staged onto every entry of its article. -/
def stageRecord (b : Batch) (n : Nat) (r : Record) (s : State) : State :=
  stageWhere (fun _ => true) b n r s

/-! ### Dropping the next batch (R97) -/

/-- R97: what the drop of batch `b` leaves of an entry. -/
def dropFromEntry (b : Batch) (e : Entry) : Entry :=
  let e := { e with deferred := none }
  if e.pending.map PendingRecord.batch = some b then
    match e.state with
    | .staged => { e with pending := none, state := .current }
    | .preloading => { e with pending := none, state := .current }
    | .preloaded => { e with pending := none, state := .current }
    | _ => { e with pending := none }
  else e

/-- R97: an entry has a record of batch `b`. -/
def hasRecordOf (b : Batch) (e : Entry) : Bool :=
  e.pending.map PendingRecord.batch = some b || e.deferred.isSome

/-- R97: every entry's pending and deferred records on `b` are removed. -/
def dropFromDirectory (b : Batch) (s : State) : State :=
  (s.slotsWhere (hasRecordOf b)).foldl (fun s i => moveEntry i (dropFromEntry b (s.entry i)) s) s

/-! ### The restaging walk (R98, R99) -/

/-- The walk goes over the numbers of one bank above the place reached: a record kept in RAM is staged
at once, a STORED one is read first. True where the walk waits for a read. -/
def walkMarks (w : Walk) (b : Batch) : Table Mark → State → State × Bool
  | [], s => (s, false)
  | (n, m) :: ms, s =>
    if n ≤ w.reached then walkMarks w b ms s
    else
      match m with
      | .stored =>
        (flashRequest (.read .walk b n) { s with dir := { s.dir with walk := some { w with reached := n } } }, true)
      | _ =>
        match s.record b n with
        | some r => walkMarks w b ms (stageWhere (fun i => w.targets.contains i) b n r s)
        | none => walkMarks w b ms s

/-- The marks of the bank carrying a batch, none where it has been retired. -/
def marksOf (s : State) (b : Batch) : Table Mark :=
  match s.bankOf b with
  | some i => (s.bank i).marks
  | none => []

/-- R98: the walk goes on through its banks and ends after the last. -/
def walkBanks (w : Walk) : List Batch → State → State
  | [], s => { s with dir := { s.dir with walk := none } }
  | b :: bs, s =>
    match walkMarks { w with batches := b :: bs } b (marksOf s b) s with
    | (s', true) => s'
    | (s', false) => walkBanks { w with reached := 0 } bs s'

def walkOn (s : State) : State :=
  match s.dir.walk with
  | none => s
  | some w => walkBanks w w.batches s

/-- R98: a pass starts over the marked entries, whose marks are cleared, where none is running. -/
def walkSettle (s : State) : State :=
  match s.dir.walk with
  | some _ => s
  | none =>
    let targets := s.slotsWhere Entry.restage
    if targets = [] then s
    else
      let s := targets.foldl (fun s i => s.setEntry i { s.entry i with restage := false }) s
      walkOn { s with dir := { s.dir with
        walk := some ⟨targets, s.liveBatch.toList ++ s.nextBatch.toList, 0⟩ } }

/-- R98: a record read for the walk comes back, and the walk goes on. -/
def walkReturned (b : Batch) (n : Nat) (s : State) : State :=
  match s.dir.walk with
  | none => s
  | some w =>
    walkOn (match s.record b n with
      | some r => stageWhere (fun i => w.targets.contains i) b n r s
      | none => s)

/-! ### Label reports (R100, R101, R169) -/

/-- R94, R100: the pending record of an entry returning to service is composed afresh. -/
def recompose (s : State) (e : Entry) : Entry :=
  match e.pending with
  | some p => e.pend p.batch p.seq (s.face p.batch p.seq)
  | none => e

/-- R100, steps 1 to 5; `pageCounts` is false where the rule takes the pending page as not valid. -/
def reportEntry (s : State) (st : StatusAnswer) (pageCounts : Bool) (e : Entry) : Entry :=
  if st.state = .refreshing then
    { e with state := .swapping, refreshStart := some s.now, swapRecord := none }
  else
    match e.pending with
    | none => { e with state := .current }
    | some p =>
      if pageCounts ∧ st.page.isSome ∧ st.page = p.check.map (fun c => (p.batch, c)) then
        { e with state := .preloaded }
      else if st.shown = some p.batch then resolvePending s s.nextBatch e
      else { e with state := .staged }

/-- R128, R141: the POLL of an entry falls due at a moment. -/
def pollAt (i : Nat) (due : Micros) (s : State) : State :=
  let s := askAt i .poll (some due) s
  s.setRail (railOf i) ((s.rail (railOf i)).updateJob .poll (posOf i) fun j => { j with due := some due })

/-- R100: the jobs that go with the state a report has given an entry. -/
def reportJobs (i : Nat) (keepRevisit : Bool) (s : State) : State :=
  let s := if keepRevisit then s else withdrawAt i (· = .revisit) s
  let e := s.entry i
  match e.state with
  | .swapping => pollAt i (s.now + pollTime) s
  | .staged => askAt i .preload none s
  | _ => s

/-- R100: a label report is evaluated for an entry that has an article. -/
def evaluateReport (i : Nat) (st : StatusAnswer) (serial : Option (BitVec 32)) (pageCounts : Bool)
    (keepRevisit : Bool) (s : State) : State :=
  let e := s.entry i
  let e := { e with serial := serial.or e.serial, shown := st.shown, attempts := 0 }
  let e := if e.state = .absent ∨ e.state = .faulted then recompose s e else e
  reportJobs i keepRevisit (moveEntry i (reportEntry s st pageCounts e) s)

/-- R119: the article an IDENT reports; a digit above 9 is taken as no article. -/
def identCode (a : IdentAnswer) : Option Nat := articleOf a.article

/-- R101: the directory-mismatch alert and the entry's flag. -/
def mismatchAt (i : Nat) (s : State) : State :=
  { s.setEntry i { s.entry i with mismatch := true } with alerts := { s.alerts with mismatch := true } }

/-- R101: a report for a home entry. -/
def homeReport (i : Nat) (st : StatusAnswer) (id : Option IdentAnswer) (keepRevisit : Bool) (s : State) : State :=
  let e := s.entry i
  match e.article, id with
  | none, some id => (mismatchAt i s).setEntry i { (mismatchAt i s).entry i with serial := some id.serial }
  | none, none => mismatchAt i s
  | some _, none => evaluateReport i st none true keepRevisit s
  | some a, some id =>
    if identCode id = some a then evaluateReport i st (some id.serial) true keepRevisit s
    else evaluateReport i st (some id.serial) false keepRevisit (askAt i .assign none (mismatchAt i s))

/-- R101, R169: a report for an adopted entry; the label's article stands. Where the label reports no
article every job of the position but CENSUS is withdrawn (log entry 47). -/
def crossReport (i : Nat) (st : StatusAnswer) (id : Option IdentAnswer) (keepRevisit : Bool) (s : State) : State :=
  let e := s.entry i
  let r := railOf i
  match e.article, id with
  | none, none => s
  | some _, none => evaluateReport i st none true keepRevisit s
  | none, some id =>
    match identCode id with
    | none => s.setEntry i { e with serial := some id.serial }
    | some a =>
      let s := s.setEntry i { e with article := some a }
      let s := s.setRail r { s.rail r with gave := insertNat i (s.rail r).gave }
      evaluateReport i st (some id.serial) true keepRevisit s
  | some a, some id =>
    match identCode id with
    | none => withdrawAt i (fun k => k ≠ .census) (s.setEntry i { Entry.vacant with serial := some id.serial })
    | some a' =>
      if a' = a then evaluateReport i st (some id.serial) true keepRevisit s
      else
        evaluateReport i st (some id.serial) false keepRevisit
          (s.setEntry i { e with article := some a', pending := none, deferred := none, restage := true })

/-- R100, R101, R169: a label report arrives at the directory; without identity it counts as naming
the entry's own article and serial (R132). -/
def deliverReport (i : Nat) (st : StatusAnswer) (id : Option IdentAnswer) (keepRevisit : Bool) (s : State) : State :=
  if isCross (railOf i) then crossReport i st id keepRevisit s else homeReport i st id keepRevisit s

/-! ### Give-ups (R102, R120) -/

/-- R102: the entry a give-up leaves; a VACANT one stays VACANT. -/
def givenUp (target : EntryState) (e : Entry) : Entry :=
  if e.state = .vacant then e else { e with state := target }

/-- R102, R128: a give-up turns the entry of a slot ABSENT or FAULTED; it loses its jobs other than
REVISIT, and a REVISIT is asked for 60 s later. One already on the list, as the identity-due one of a
SWAPPING entry, stays as it stands (log entry 37). -/
def giveUpEntry (i : Nat) (target : EntryState) (s : State) : State :=
  let s := moveEntry i (givenUp target (s.entry i)) s
  let s := withdrawAt i (fun k => k ≠ .revisit) s
  if (s.entry i).state = .vacant then s else askAt i .revisit (some (s.now + revisitTime)) s

/-- R120, R144: an entry that enters FAULTED from another state latches entry-fault and is counted. -/
def faultEntry (i : Nat) (s : State) : State :=
  let before := (s.entry i).state
  let s := giveUpEntry i .faulted s
  if before ≠ .faulted ∧ (s.entry i).state = .faulted then
    { s with
      alerts := { s.alerts with entryFault := true }
      counters := { s.counters with labelFaults := bump s.counters.labelFaults } }
  else s

/-! ### Swaps (R142) -/

/-- R142: the entry a completed swap leaves. -/
def swappedEntry (s : State) (swap : PendingRecord) (e : Entry) : Entry :=
  let e := { e with shown := some swap.batch, swapRecord := none, missed := false, mismatch := false }
  match e.pending with
  | none => { e with state := .current }
  | some p =>
    if p.batch = swap.batch ∧ p.seq = swap.seq then resolvePending s s.nextBatch e
    else { e with state := .staged }

/-- R142: a swap completes. -/
def completeSwap (i : Nat) (swap : PendingRecord) (s : State) : State :=
  let s := moveEntry i (swappedEntry s swap (s.entry i)) s
  { s with counters := { s.counters with swapsDone := bump s.counters.swapsDone } }

/-! ### Directory storage (R109, R110) -/

/-- R110: a rewrite is called for: its erase is asked for at once, or when the last program of the
rewrite under way is accepted. -/
def callRewrite (s : State) : State :=
  match s.dir.rewrite with
  | .idle =>
    { s with
      dir := { s.dir with rewrite := .erasing }
      flash := { s.flash with dirErases := s.flash.dirErases ++ [.entries] } }
  | .erasing => s
  | .programming _ _ => { s with dir := { s.dir with rewriteAgain := true } }

/-- R110: the rows that look at the place state. -/
def placeWork (i : Nat) (article : Option Nat) (s : State) : State :=
  match article, Sparse.get PlaceState.erased s.dir.places i with
  | some a, .erased =>
    flashRequest (.place i a false)
      { s with dir := { s.dir with places := Sparse.put .erased s.dir.places i .written } }
  | some _, .written => callRewrite s
  | none, .written => callRewrite s
  | none, .erased => s

/-- R110: the flash work of a change to a home entry, which now holds `article`. -/
def directoryWork (i : Nat) (article : Option Nat) (s : State) : State :=
  match s.dir.rewrite with
  | .erasing => s
  | .programming slots _ => if i ∈ slots then callRewrite s else placeWork i article s
  | .idle => placeWork i article s

/-- A program of a lock place, the given one. -/
def FlashOp.isLockPlace (i : Nat) : FlashOp → Bool
  | .lockPlace j _ => j = i
  | _ => false

/-- R110: the next unused lock place: the lowest that is erased and not asked to be programmed. -/
def nextLockPlace (s : State) : Nat :=
  ((List.range 128).find? fun i =>
    Sparse.get LockContent.erased s.lockFlash i = .erased && !s.flash.queue.any (FlashOp.isLockPlace i)).getD 0

/-- R110: the stored mode is programmed to the next unused lock place; when all are used the lock
sector is erased first. -/
def lockWrite (s : State) : State :=
  if s.dir.lockUsed < 128 then
    flashRequest (.lockPlace (nextLockPlace s) s.dir.storedMode)
      { s with dir := { s.dir with lockUsed := s.dir.lockUsed + 1, lockWork := .programming } }
  else
    { s with
      dir := { s.dir with lockWork := .erasing }
      flash := { s.flash with dirErases := s.flash.dirErases ++ [.lock] } }

/-- R110: work called for while earlier work of its kind was not complete is taken up. -/
def directorySettle (s : State) : State :=
  let s :=
    if s.dir.rewrite = .idle ∧ s.dir.rewriteAgain then
      callRewrite { s with dir := { s.dir with rewriteAgain := false } }
    else s
  if s.dir.lockWork = .idle ∧ s.dir.lockAgain then
    lockWrite { s with dir := { s.dir with lockAgain := false } }
  else s

/-- R110: the home slots whose entry has an article and no clear-waiting mark, in slot order. -/
def programList (s : State) : List (Nat × Nat) :=
  s.dir.entries.filterMap fun c =>
    match c.2.article with
    | some a => if c.1 < 256 ∧ !c.2.clearWaiting then some (c.1, a) else none
    | none => none

/-- R110: a rewrite's erase is complete: the program list is taken from RAM and programmed. -/
def rewritePrograms (s : State) : State :=
  let l := programList s
  let slots := l.map Prod.fst
  let s := { s with dir := { s.dir with
    places := [], rewrite := if slots = [] then .idle else .programming slots slots } }
  flashRequests (l.map fun p => .place p.1 p.2 true) s

/-! ### Commissioning (R103 to R108) -/

/-- R105: the effective lock modes. -/
inductive LockMode where
  | open | pin | session | permanent
deriving DecidableEq, Repr

/-- R105: the effective lock mode. -/
def State.lockMode (s : State) : LockMode :=
  match s.dir.storedMode with
  | .permanent => .permanent
  | .open => if s.dir.sessionLock then .session else .open
  | .pin => if s.dir.sessionLock then .session else .pin

/-- R105: the effective lock mode allows a directory write, LOCK_N reading `lockN`. -/
def lockAllows (m : LockMode) (lockN : Bool) : Bool :=
  match m with
  | .open => true
  | .pin => lockN
  | .session => false
  | .permanent => false

/-- R107: the state of an entry that takes a new article. -/
def assignedState : EntryState → EntryState
  | .swapping => .swapping
  | .absent => .absent
  | .faulted => .faulted
  | _ => .current

/-- R107, first case: the entry already holds the article; of its flags the missed and article-mismatch flags
alone are cleared. The face flags stay, where R89 has ASSIGN_POSITION clear them (log entry 63). -/
def reassign (i : Nat) (s : State) : State :=
  askAt i .assign none (s.setEntry i { s.entry i with missed := false, mismatch := false })

/-- R107, second case: the entry takes article `a`; its jobs other than REVISIT are withdrawn, the POLL
of an entry that stays SWAPPING among them (log entries 14 and 30). -/
def assignNew (i : Nat) (a : Nat) (s : State) : State :=
  let e := s.entry i
  let s := withdrawAt i (fun k => k ≠ .revisit) s
  let s := s.setEntry i { e with
    article := some a, pending := none, deferred := none, missed := false, mismatch := false
    markdownVoid := false, multiVoid := false, unitOver := false, attempts := 0
    clearWaiting := false, state := assignedState e.state, restage := true }
  directoryWork i (some a) (askAt i .assign none s)

/-- R107: an admitted ASSIGN_POSITION. -/
def assignArticle (i : Nat) (a : Nat) (s : State) : State :=
  let e := s.entry i
  if e.article = some a ∧ !e.clearWaiting then reassign i s else assignNew i a s

/-- R108: an admitted CLEAR_POSITION. -/
def clearArticle (i : Nat) (s : State) : State :=
  let e := s.entry i
  match e.state with
  | .vacant => s
  | .swapping =>
    directoryWork i none (s.setEntry i { e with
      pending := none, deferred := none, missed := false, mismatch := false, markdownVoid := false
      multiVoid := false, unitOver := false, clearWaiting := true })
  | _ => directoryWork i none (vacateEntry i s)

/-- R106: a stored mode different from the present one is taken at once and written. -/
def changeStored (m : StoredMode) (s : State) : State :=
  if m = s.dir.storedMode then s
  else
    let s := { s with dir := { s.dir with storedMode := m } }
    if s.dir.lockWork = .idle then lockWrite s else { s with dir := { s.dir with lockAgain := true } }

/-- R106: an admitted SET_LOCK. -/
def applyLock (m : LockMode) (s : State) : State :=
  match m with
  | .session => { s with dir := { s.dir with sessionLock := true } }
  | .open => changeStored .open s
  | .pin => changeStored .pin s
  | .permanent => changeStored .permanent s

end Sys2Proof.Machine
end

