-- ==== Sys2Proof/Machine/Flags.lean ====
section
/-! DEFINITION. What is computed from the state: the two phases, the output pins, the digest condition
and the alert conditions (R62, R147, R148, R167, R186, R189, R210, R212). -/

namespace Sys2Proof.Machine

/-- R148: an entry in service has a pending record on the live batch. -/
def pendingOnLive (s : State) (e : Entry) : Bool :=
  e.state ≠ .faulted && e.state ≠ .absent && e.pending.isSome
    && e.pending.map PendingRecord.batch = s.liveBatch

/-- R148: the live phase. -/
def State.livePhase (s : State) : LivePhase :=
  match s.liveBatch with
  | none => .none
  | some _ => if s.dir.entries.any fun c => pendingOnLive s c.2 then .swapping else .settled

/-- The next batch's bank is complete; false while there is no next batch. -/
def nextComplete (s : State) : Bool :=
  match s.bankIn .next with
  | some i => (s.bank i).complete
  | none => false

/-- A next batch is present and incomplete (R71). -/
def nextIncomplete (s : State) : Bool :=
  match s.bankIn .next with
  | some i => !(s.bank i).complete
  | none => false

/-- R147: the next phase. -/
def State.nextPhase (s : State) : NextPhase :=
  match s.nextBatch with
  | none => .none
  | some _ =>
    match s.flip.hold with
    | some _ => .holding
    | none => if nextComplete s then .complete else .gathering

/-- R62: the fast condition. -/
def State.fast (s : State) : Bool :=
  s.nextBatch.isSome || s.livePhase = .swapping

/-- R186, R203: the level of FRDY, none where it is undriven, as every output is without a valid supply. While
RESET_N holds the station it is low, and it is high in RUN with a place in the command buffer. -/
def State.frdy (s : State) : Option Bool :=
  match s.power with
  | .off => none
  | .held => some false
  | .on => some (s.phase = .run && s.feed.buffer.length < 4)

/-- R210: some alert cause is latched. -/
def Alerts.any (a : Alerts) : Bool :=
  a.railDead || a.entryFault || a.adoption || a.isolated || a.duplicate || a.holdOverflow || a.missed
    || a.mismatch

/-- R212: ALERT_N is driven low. -/
def State.alertLow (s : State) : Bool :=
  s.power = .on && s.alerts.any

/-- R167, R179, R203: RHLD_H_k is asserted by this station; a station unpowered or held in reset releases it. -/
def State.holdDriven (s : State) (k : Fin 4) : Bool :=
  s.power = .on &&
  match s.adopt.home[k] with
  | .taking _ => true
  | .own => true
  | _ => false

/-- R112, R167: the port of a rail drives its lines. -/
def State.portDrives (s : State) (r : Fin 8) : Bool :=
  s.power = .on && (s.rail r).enabled

/-- R188: the code of a result (R65). -/
def ResultCode.byte : ResultCode → Byte
  | .done => 0x00 | .refusedLock => 0x01 | .refusedWel => 0x02 | .badRange => 0x03
  | .badLength => 0x04 | .oldBatch => 0x05 | .notNext => 0x06 | .noBatch => 0x07
  | .unknownCommand => 0x08 | .none => 0xFF

/-- R188: the result length. -/
def Result.length (r : Result) : Nat := 2 + r.body.length

/-- R189: the bytes a result is shifted out as. -/
def Result.bytes (r : Result) : List Byte :=
  be1 r.length ++ [r.echo, r.code.byte] ++ r.body

/-- R180, R203: FDO is driven: FSEL_N is low on a powered station out of reset. -/
def State.fdoDriven (s : State) : Bool :=
  s.power = .on && s.fselLow

/-- R189: the bytes chosen to be sent. -/
def chosenBytes (c : Choice) (f : Feed) : List Byte :=
  match c with
  | .oldest => (f.results.head?.map Result.bytes).getD []
  | .empty => Result.bytes ⟨0x40, .none, []⟩
  | .nothing => []

/-- R180, R181, R189: the byte on FDO in byte `n` of a transaction, bytes numbered from 0; none is high
impedance. Bytes 0 and 1 carry 0x00 whatever the transaction is, the chosen bytes follow, and 0x00 after
them (log entry 40). FREE VALUE: what FDO carries where FSEL_N is low and a reset has ended the
transaction. -/
def State.fdo (s : State) (n : Nat) : Option Byte :=
  if s.fdoDriven then
    match s.feed.txn with
    | some c => some (byteAt (0x00 :: 0x00 :: chosenBytes c s.feed) n)
    | none => some (Config.idleByte n)
  else none

/-- R210: the conditions under which a cleared cause latches again at once. -/
def alertConditions (s : State) : Alerts :=
  { Alerts.clear with
    railDead := s.rails.toList.any fun r => r.state = .dead
    adoption := s.adopt.holder = .holding || s.adopt.holder = .yielding
    isolated := s.trunk.isolated }

/-- R130: how many entries of a rail are SWAPPING. -/
def swappingOn (s : State) (r : Fin 8) : Nat :=
  (s.dir.entries.filter fun c => railOf c.1 = r && c.2.state = .swapping).length

/-- R175: some adopted entry of an enabled cross rail is SWAPPING. -/
def adoptedSwapping (s : State) : Bool :=
  s.dir.entries.any fun c => isCross (railOf c.1) && (s.rail (railOf c.1)).enabled && c.2.state = .swapping

/-- R207: how many of the 512 entries are in a state; an unlisted slot is VACANT. -/
def State.entriesIn (s : State) (x : EntryState) : Nat :=
  let n := (s.dir.entries.filter fun c => c.2.state = x).length
  if x = .vacant then 512 - s.dir.entries.length + n else n

end Sys2Proof.Machine
end

