-- ==== Sys2Proof/Machine/Repair.lean ====
section
/-! DEFINITION. The repair engine and the producers of the transmit queue (file 04, R66 to R87; R54). -/

namespace Sys2Proof.Machine

open Sys2Proof.Config

/-! ### Numbers and ranges (R72, R78) -/

/-- Ascending numbers as ranges of consecutive numbers. -/
def toRanges : List Nat → List (Nat × Nat)
  | [] => []
  | n :: ns =>
    match toRanges ns with
    | [] => [(n, n)]
    | (a, b) :: rs => if a = n + 1 then (n, b) :: rs else (n, n) :: (a, b) :: rs

/-- The numbers of a range. -/
def rangeNumbers (p : Nat × Nat) : List Nat :=
  List.range' p.1 (p.2 + 1 - p.1)

/-- R75, R78: the numbers of the four lowest ranges. -/
def keepFour (ns : List Nat) : List Nat :=
  ((toRanges ns).take 4).flatMap rangeNumbers

/-- R72: numbers are taken until `left` are taken or the next would need a range beyond `ranges`. -/
def takeNumbers : List Nat → (left ranges : Nat) → (last : Option Nat) → List Nat
  | [], _, _, _ => []
  | _ :: _, 0, _, _ => []
  | n :: ns, left + 1, ranges, last =>
    if last = some (n - 1) ∧ n ≠ 0 then n :: takeNumbers ns left ranges (some n)
    else
      match ranges with
      | 0 => []
      | r + 1 => n :: takeNumbers ns left r (some n)

/-- A WANT's ranges cover a number. -/
def covers (rs : List (BitVec 16 × BitVec 16)) (n : Nat) : Bool :=
  rs.any fun p => p.1.toNat ≤ n && n ≤ p.2.toNat

/-- The numbers a WANT's ranges cover, ascending. -/
def coveredNumbers (rs : List (BitVec 16 × BitVec 16)) : List Nat :=
  rs.flatMap fun p => rangeNumbers (p.1.toNat, p.2.toNat)

/-! ### Want slots (R67) -/

def State.slot (s : State) (k : Fin 8) : Option WantSlot := s.repair.slots[k]

def State.setSlot (s : State) (k : Fin 8) (w : Option WantSlot) : State :=
  { s with repair := { s.repair with slots := s.repair.slots.set k w } }

def allSlots : List (Fin 8) := [0, 1, 2, 3, 4, 5, 6, 7]

/-- R70, R72: the lowest-numbered FREE slot. -/
def freeSlot (s : State) : Option (Fin 8) :=
  allSlots.find? fun k => s.slot k = none

/-- R67: a number is chased. -/
def chased (s : State) (b : Batch) (n : Nat) : Bool :=
  allSlots.any fun k =>
    match s.slot k with
    | some w => w.batch = b && w.numbers.contains n
    | none => false

/-- R73: the WANT of a slot. -/
def WantSlot.frame (w : WantSlot) : Frame :=
  .want w.batch ((toRanges w.numbers).map fun p => (BitVec.ofNat 16 p.1, BitVec.ofNat 16 p.2))

/-- R72: a slot enters DELAYING with a delay drawn from the window of its attempt. -/
def delaySlot (k : Fin 8) (b : Batch) (ns : List Nat) (attempt : Nat) (s : State) : State :=
  let d := drawn (ms (20 * 2 ^ (attempt - 1))) (ms (200 * 2 ^ (attempt - 1))) s
  s.drew.setSlot k (some ⟨b, ns, attempt, .delaying (s.now + d)⟩)

/-- R74: a slot enters WAITING with a 1 s wait. -/
def waitSlot (k : Fin 8) (w : WantSlot) (s : State) : State :=
  s.setSlot k (some { w with phase := .waiting (s.now + wantWait) })

/-- R73: a queued WANT is rewritten in place. -/
def rewriteWant (k : Fin 8) (w : WantSlot) (s : State) : State :=
  { s with trunk := { s.trunk with
      queue := s.trunk.queue.map fun f => if f.tag = .want k then { f with frame := w.frame } else f } }

/-- R56, R77: a slot's queued frame is withdrawn, or its wait for a place given up. -/
def withdrawWant (k : Fin 8) (s : State) : State :=
  dropWaiter (.want k) (dropFrames (fun f => f.tag = .want k) s)

/-- R79: a slot becomes FREE; a frame in transmission goes out whole: it stays the head after a collision too,
which finds the slot FREE (log entry 61). -/
def releaseSlot (k : Fin 8) (s : State) : State :=
  match s.slot k with
  | none => s
  | some w =>
    match w.phase with
    | .queued => (withdrawWant k s).setSlot k none
    | .sending => (retag (fun f => f.tag = .want k) .orphan s).setSlot k none
    | _ => s.setSlot k none

/-- R76: the numbers of a slot shrink to `ns`. -/
def trimSlot (k : Fin 8) (ns : List Nat) (s : State) : State :=
  match s.slot k with
  | none => s
  | some w =>
    match w.phase with
    | .sending => s.setSlot k (some { w with numbers := keepFour ns })
    | .waiting _ => s.setSlot k (if ns = [] then none else some { w with numbers := ns })
    | .delaying _ => s.setSlot k (if ns = [] then none else some { w with numbers := keepFour ns })
    | .queued =>
      if ns = [] then releaseSlot k s
      else
        let w := { w with numbers := keepFour ns }
        rewriteWant k w (s.setSlot k (some w))

/-- R76: number `n` of batch `b` has been taken; it leaves the slot that chases it. -/
def leaveSlots (b : Batch) (n : Nat) (s : State) : State :=
  allSlots.foldl (fun s k =>
    match s.slot k with
    | some w => if w.batch = b ∧ n ∈ w.numbers then trimSlot k (w.numbers.filter (· ≠ n)) s else s
    | none => s) s

/-- R70: a header request for batch `b`. -/
def headerRequest (b : Batch) (s : State) : State :=
  if chased s b 0 then s
  else
    match freeSlot s with
    | some k => delaySlot k b [0] 1 s
    | none => s

/-- R72: a gap trigger for batch `b` schedules a record WANT. -/
def gapTrigger (b : Batch) (s : State) : State :=
  match s.bankOf b, freeSlot s with
  | some i, some k =>
    let ns := takeNumbers ((s.bank i).missing.filter fun n => !chased s b n) maxNumbers 4 none
    if ns = [] then s else delaySlot k b ns 1 s
  | _, _ => s

/-- R79: every slot for a batch becomes FREE. -/
def releaseSlotsOf (b : Batch) (s : State) : State :=
  allSlots.foldl (fun s k => if (s.slot k).map WantSlot.batch = some b then releaseSlot k s else s) s

/-- R70: the header slots for a batch an OPEN for it satisfies become FREE at once, one in SENDING too, whose
WANT goes on contending after a collision; R76's last sentence can be read otherwise (log entry 61). -/
def satisfyHeaders (b : Batch) (s : State) : State :=
  allSlots.foldl (fun s k =>
    match s.slot k with
    | some w => if w.batch = b ∧ w.numbers = [0] then releaseSlot k s else s
    | none => s) s

/-- R70, R79: header slots no longer wanted become FREE when a batch opens. -/
def dropHeaders (s : State) : State :=
  allSlots.foldl (fun s k =>
    match s.slot k with
    | some w =>
      if w.numbers = [0] ∧ s.nextBatch ≠ some w.batch ∧ !s.newerThanBoth w.batch then releaseSlot k s else s
    | none => s) s

/-- R71: the trailing-gap timer starts, in RUN, while the next batch is present and incomplete. -/
def startTrailing (s : State) : State :=
  if s.phase = .run ∧ nextIncomplete s then
    { s with repair := { s.repair with trailingAt := some (s.now + trailingTime) } }
  else s

/-- R71: the trailing-gap timer stops when there is no next batch or it is complete. -/
def trailingSettle (s : State) : State :=
  if nextIncomplete s then s else { s with repair := { s.repair with trailingAt := none } }

/-! ### Hearing a WANT (R77, R80) -/

/-- R77: one slot hears a WANT covering some of its numbers. -/
def hearWantAt (b : Batch) (rs : List (BitVec 16 × BitVec 16)) (s : State) (k : Fin 8) : State :=
  match s.slot k with
  | none => s
  | some w =>
    let asking := match w.phase with | .delaying _ => true | .queued => true | _ => false
    let out := w.numbers.filter (covers rs)
    let left := w.numbers.filter fun n => !covers rs n
    if !asking ∨ w.batch ≠ b ∨ out = [] then s
    else if left = [] then
      let s := waitSlot k { w with numbers := out } (withdrawWant k s)
      { s with counters := { s.counters with wantsSuppressed := bump s.counters.wantsSuppressed } }
    else
      let s := trimSlot k left s
      match freeSlot s with
      | some j => waitSlot j { w with numbers := out } s
      | none => s

/-- R77: a WANT heard from another station; its slots are dealt with by ascending number (log entry 42). -/
def hearWant (b : Batch) (rs : List (BitVec 16 × BitVec 16)) (s : State) : State :=
  allSlots.foldl (hearWantAt b rs) s

def answerList? (s : State) (b : Batch) : Option AnswerList :=
  s.repair.answers.find? fun l => l.batch = b

def answerRun? (s : State) (b : Batch) : Option AnswerRun :=
  s.repair.runs.find? fun r => r.batch = b

/-- The answer list of a batch is set, a list with no number and no header flag being no list. -/
def setAnswerList (l : AnswerList) (s : State) : State :=
  let rest := s.repair.answers.filter fun x => x.batch ≠ l.batch
  { s with repair := { s.repair with
      answers := if l.numbers = [] ∧ !l.header then rest else rest ++ [l] } }

/-- The answer run of a batch is set, a run with nothing left being no run. -/
def setAnswerRun (r : AnswerRun) (s : State) : State :=
  let rest := s.repair.runs.filter fun x => x.batch ≠ r.batch
  if r.numbers = [] ∧ !r.header then
    dropWaiter (.answer r.batch) { s with repair := { s.repair with runs := rest } }
  else { s with repair := { s.repair with runs := rest ++ [r] } }

/-- R80: the numbers of a heard WANT that the station can give and does not list already. -/
def givable (s : State) (i : BankId) (b : Batch) (ns : List Nat) : List Nat :=
  let k := s.bank i
  let listed := ((answerList? s b).map AnswerList.numbers).getD []
  let running := ((answerRun? s b).map AnswerRun.numbers).getD []
  ns.filter fun n => 1 ≤ n && n ≤ k.count && (k.mark n = some .stored || k.mark n = some .held)
    && !listed.contains n && !running.contains n

/-- R80: a WANT heard from another station fills the answer list of its batch. -/
def fillAnswers (b : Batch) (rs : List (BitVec 16 × BitVec 16)) (s : State) : State :=
  match s.bankOf b with
  | none => s
  | some i =>
    let add := givable s i b (coveredNumbers rs)
    let header := covers rs 0
    match answerList? s b with
    | some l =>
      setAnswerList { l with
        numbers := (add.take (maxNumbers - l.numbers.length)).foldl (fun ns n => insertNat n ns) l.numbers
        header := l.header || header } s
    | none =>
      if add = [] ∧ !header then s
      else setAnswerList ⟨b, add.take maxNumbers, header, s.now + drawn (ms 5) (ms 80) s⟩ s.drew

/-! ### Trimming answers (R81) -/

/-- R81: one number carried by a heard PRICE frame leaves the answer list and the run. -/
def trimAnswer (b : Batch) (n : Nat) (s : State) : State :=
  let count := fun (s : State) =>
    { s with counters := { s.counters with answersTrimmed := bump s.counters.answersTrimmed } }
  let s := match answerList? s b with
    | some l => if n ∈ l.numbers then count (setAnswerList { l with numbers := l.numbers.filter (· ≠ n) } s) else s
    | none => s
  match answerRun? s b with
  | some r => if n ∈ r.numbers then count (setAnswerRun { r with numbers := r.numbers.filter (· ≠ n) } s) else s
  | none => s

/-- R81: the records of a heard PRICE frame trim the answers of its batch. -/
def trimAnswers (b : Batch) (ns : List Nat) (s : State) : State :=
  ns.foldl (fun s n => trimAnswer b n s) s

/-- R81: a heard OPEN clears the header flag of the list and of the run. -/
def clearHeaderAnswers (b : Batch) (s : State) : State :=
  let s := match answerList? s b with
    | some l => setAnswerList { l with header := false } s
    | none => s
  match answerRun? s b with
  | some r => setAnswerRun { r with header := false } s
  | none => s

/-- R85: a retired batch's answer list and run are discarded; a frame waiting for a place is not built. -/
def discardAnswers (b : Batch) (s : State) : State :=
  dropWaiter (.answer b) { s with repair := { s.repair with
    answers := s.repair.answers.filter fun l => l.batch ≠ b
    runs := s.repair.runs.filter fun r => r.batch ≠ b } }

/-! ### Sending answers (R83, R84) -/

/-- R84: the answer PRICE frame of the records returned; none returned, none queued. -/
def queueAnswer (b : Batch) (rs : List Record) (s : State) : State :=
  if rs = [] then s else enqueueFrame (.answer b) (.price b true rs) s

/-- R84: how a number's record comes: read from flash, or at once. -/
def answerPart (s : State) (b : Batch) (n : Nat) : Nat × Option (Option Record) :=
  match (s.bankOf b).bind fun i => (s.bank i).mark n with
  | some .stored => (n, none)
  | some .held => (n, some (s.record b n))
  | _ => (n, some none)

/-- R83: the next frame of a run is built in a granted place. -/
def answerFrame (b : Batch) (s : State) : State :=
  match answerRun? s b with
  | none => s
  | some r =>
    if r.header then
      let count := ((s.bankOf b).map fun i => (s.bank i).count).getD 0
      enqueueFrame (.answer b) (.opening b (BitVec.ofNat 16 count) true) (setAnswerRun { r with header := false } s)
    else
      let parts := (r.numbers.take 7).map (answerPart s b)
      let reads := parts.filterMap fun p => if p.2.isNone then some (FlashOp.read .answer b p.1) else none
      let s := setAnswerRun { r with numbers := r.numbers.drop 7 } s
      if reads = [] then queueAnswer b (parts.filterMap fun p => p.2.join) s
      else flashRequests reads { s with repair := { s.repair with builds := s.repair.builds ++ [⟨b, parts⟩] } }

/-- R83: a run goes on: its next frame is built if a place is free and nobody waits, else it waits. A
frame whose records are being read is queued before the next is built (log entry 41). -/
def pumpRun : Nat → Batch → State → State
  | 0, _, s => s
  | fuel + 1, b, s =>
    match answerRun? s b with
    | none => s
    | some _ =>
      if s.listenOnly then { s with repair := { s.repair with runs := s.repair.runs.filter fun x => x.batch ≠ b } }
      else if s.repair.builds.any (fun x => x.batch = b) ∨ Producer.answer b ∈ s.trunk.waiters then s
      else if placeFree s ∧ s.trunk.waiters = [] then pumpRun fuel b (answerFrame b s)
      else { s with trunk := { s.trunk with waiters := s.trunk.waiters ++ [.answer b] } }

/-- R83: the frames the run of a batch can need: its OPEN, and one for each number at most. -/
def runFuel (b : Batch) (s : State) : Nat :=
  ((answerRun? s b).map fun r => r.numbers.length).getD 0 + 2

/-- R83: the run of a batch goes on. -/
def sendRun (b : Batch) (s : State) : State :=
  pumpRun (runFuel b s) b s

/-- R84: a record read for an answer comes back. -/
def answerReturned (b : Batch) (n : Nat) (s : State) : State :=
  let r := s.record b n
  match s.repair.builds.find? fun x => x.batch = b with
  | none => s
  | some x =>
    let parts := x.parts.map fun p => if p.1 = n ∧ p.2.isNone then (n, some r) else p
    let rest := s.repair.builds.filter fun y => y.batch ≠ b
    if parts.any fun p => p.2.isNone then
      { s with repair := { s.repair with builds := rest ++ [⟨b, parts⟩] } }
    else
      sendRun b (queueAnswer b (parts.filterMap fun p => p.2.join)
        { s with repair := { s.repair with builds := rest } })

/-! ### Producers and places (R54, R64) -/

/-- R54: a producer is granted a place and its frame is built and queued; the feed port keeps its
place until its command executes (R185). -/
def grantPlace (p : Producer) (s : State) : State :=
  match p with
  | .feed => { s with trunk := { s.trunk with feedGrant := true } }
  | .want k =>
    match s.slot k with
    | some w => enqueueFrame (.want k) w.frame s
    | none => s
  | .answer b => sendRun b (answerFrame b s)
  | .call =>
    match s.flip.call with
    | some c => enqueueFrame .call (.flip c.batch false) s
    | none => s
  | .echo =>
    match s.flip.echo with
    | some e => enqueueFrame .echo (.flip e.batch true) s
    | none => s
  | .claim => enqueueFrame .claim (.claim s.straps.ptn) s
  | .yield => enqueueFrame .yield (.yield s.straps.ptn) s

/-- R54, R64: a producer offers a frame. A listen-only station refuses it. -/
def offer (p : Producer) (s : State) : State :=
  if s.listenOnly then s
  else if placeFree s ∧ s.trunk.waiters = [] then grantPlace p s
  else { s with trunk := { s.trunk with waiters := s.trunk.waiters ++ [p] } }

/-- R73: a slot's delay has expired: its WANT is offered and it is QUEUED. On a listen-only station
the slot goes on as after a completed transmission. -/
def offerWant (k : Fin 8) (w : WantSlot) (s : State) : State :=
  if s.listenOnly then waitSlot k w s
  else offer (.want k) (s.setSlot k (some { w with phase := .queued }))

/-- R75: a slot's 1 s wait has expired. -/
def waitExpired (k : Fin 8) (w : WantSlot) (s : State) : State :=
  if w.numbers = [] ∨ 8 ≤ w.attempt then s.setSlot k none
  else delaySlot k w.batch (keepFour w.numbers) (w.attempt + 1) s

/-- R83: a list's answer timer has expired: it passes into the run, which is sent. -/
def answerExpired (l : AnswerList) (s : State) : State :=
  let s := { s with repair := { s.repair with answers := s.repair.answers.filter fun x => x.batch ≠ l.batch } }
  let r := (answerRun? s l.batch).getD ⟨l.batch, [], false⟩
  sendRun l.batch
    (setAnswerRun { r with
      numbers := l.numbers.foldl (fun ns n => insertNat n ns) r.numbers, header := r.header || l.header } s)

end Sys2Proof.Machine
end

