-- ==== Sys2Proof/Machine/Log.lean ====
section
/-! DEFINITION. The batch log: batch events, the hold queue and sector erases (file 02, R19 to R45). -/

namespace Sys2Proof.Machine

open Sys2Proof.Config

/-! ### Ends of holds and periods that batch events bring (R151, R157, R159) -/

/-- R150, R151: the hold ends. -/
def endHold (s : State) : State :=
  { s with flip := { s.flip with hold := none } }

/-- R158: the call period ends: its frame waiting for a place is not sent, one in the queue stays. -/
def endCall (s : State) : State :=
  dropWaiter .call (retag (fun f => f.tag = .call) .orphan { s with flip := { s.flip with call := none } })

/-- R159: the echo period ends: its frame waiting for a place is not sent, one in the queue stays. -/
def endEcho (s : State) : State :=
  dropWaiter .echo (retag (fun f => f.tag = .echo) .orphan { s with flip := { s.flip with echo := none } })

/-- R157, R159: a batch newer than theirs opens: the call and echo periods end. -/
def endOlderPeriods (b : Batch) (s : State) : State :=
  let s := match s.flip.call with
    | some c => if newer b c.batch then endCall s else s
    | none => s
  match s.flip.echo with
  | some e => if newer b e.batch then endEcho s else s
  | none => s

/-! ### Headers (R23 to R25) -/

/-- R23: the header of a bank is programmed, its first count place with it. -/
def programHeader (i : BankId) (s : State) : State :=
  let k := s.bank i
  flashRequest (.header i (k.batch.getD 0) k.count (k.role = .live))
    (s.setBank i { k with header := some .written, placesUsed := insertNat 0 k.placesUsed })

/-- R24: a change of role of a bank whose header is WRITTEN is programmed. -/
def programMark (i : BankId) (retired : Bool) (s : State) : State :=
  if (s.bank i).header = some .written then flashRequest (.mark i retired) s else s

/-! ### Retiring and taking a bank (R27, R30, R31) -/

/-- R21, R27, R30, R31: the erase list of a bank that retires or takes a batch: every dirty sector,
ascending, and sector 0 with them where a program of the header slot is asked for beside the change of role
(R24) or awaits its erase already (log entry 57). -/
def Bank.toErase (k : Bank) : List Nat :=
  if k.header = some .written ∨ 0 ∈ k.eraseList then insertNat 0 k.dirty else k.dirty

/-- R24, R30, R31: what retiring leaves of a bank. -/
def Bank.retire (k : Bank) : Bank :=
  { k with
    role := .retired, marks := [], spoiled := [], eraseList := k.toErase
    header := if k.header = some .waiting then none else k.header }

/-- A record program of a bank. -/
def FlashOp.isRecordOf (i : BankId) : FlashOp → Bool
  | .record j _ _ _ => j = i
  | _ => false

/-- R24, R30, R31, R32: a bank becomes RETIRED: its records leave the hold queue and the unstored
list, its record programs still waiting for a place are abandoned, and its mark is programmed. -/
def retireBank (i : BankId) (s : State) : State :=
  programMark i true
    { s.setBank i (s.bank i).retire with
      holdQueue := s.holdQueue.filter fun k => k.bank ≠ i
      unstored := s.unstored.filter fun k => k.bank ≠ i
      flash := { s.flash with waiting := s.flash.waiting.filter fun o => !o.isRecordOf i } }

/-- R30 with R79, R85, R97, R151, R157: the next batch `b` is dropped. -/
def dropNext (b : Batch) (s : State) : State :=
  match s.bankIn .next with
  | none => s
  | some i =>
    let s := dropFromDirectory b (retireBank i s)
    let s := endHold (discardAnswers b (releaseSlotsOf b s))
    if s.flip.call.map Call.batch = some b then endCall s else s

/-- R22: a bank is blank. -/
def Bank.isBlank (k : Bank) : Bool :=
  k.role = .none && k.eraseList = []

/-- R27: the bank that takes a new next batch. -/
def takingBank (s : State) : BankId :=
  match s.bankIn .live with
  | some i => i.other
  | none =>
    if s.bankA.isBlank ∧ !s.bankB.isBlank then .a
    else if s.bankB.isBlank ∧ !s.bankA.isBlank then .b
    else if s.bankB.eraseList.length < s.bankA.eraseList.length then .b
    else .a

/-- R27: a bank takes batch `b` with record count `n`; R23 programs its header at once where sector 0
is clean and nothing of the batch before is asked into it. -/
def takeBank (i : BankId) (b : Batch) (n : Nat) (s : State) : State :=
  let k := s.bank i
  let s := s.setBank i { k with
    role := .next, batch := some b, count := n, marks := [], eraseList := k.toErase
    header := some .waiting, placesUsed := [], spoiled := [], duplicates := 0, beyond := 0 }
  if 0 ∈ k.toErase then s else programHeader i s

/-! ### The batch events (R27 to R30) -/

/-- R25: the lowest count place of a WRITTEN header that is still erased. -/
def Bank.erasedPlace (k : Bank) : Option Nat :=
  if k.header = some .written then (List.range 12).find? fun p => p ∉ k.placesUsed else none

/-- R28, R25: the record count of the next batch is merged with an arriving one. -/
def mergeCount (n : Nat) (s : State) : State :=
  match s.bankIn .next with
  | none => s
  | some i =>
    let k := s.bank i
    if n ≤ k.count then s
    else
      startTrailing (
        match k.erasedPlace with
        | some p =>
          flashRequest (.countPlace i p n) (s.setBank i { k with count := n, placesUsed := insertNat p k.placesUsed })
        | none => s.setBank i { k with count := n })

/-- R27: an OPEN for a batch newer than both: any next batch is superseded and a bank takes `b`. -/
def openNew (b : Batch) (n : Nat) (s : State) : State :=
  let s := match s.nextBatch with
    | some x => dropNext x s
    | none => s
  startTrailing (endOlderPeriods b (dropHeaders (takeBank (takingBank s) b n s)))

/-- R27: an OPEN for batch `b` with record count `n`. -/
def logOpen (b : Batch) (n : Nat) (s : State) : State :=
  if s.newerThanBoth b then openNew b n s
  else if s.nextBatch = some b then mergeCount n s
  else s

/-- R30: a STOP for batch `b`. -/
def logStop (b : Batch) (s : State) : State :=
  if s.nextBatch = some b then dropNext b s else s

/-! ### Taking a record (R29, R32, R36 to R41) -/

/-- R39, R41: a record is dropped. -/
def dropRecord (s : State) : State :=
  { s with
    counters := { s.counters with holdDrops := bump s.counters.holdDrops }
    alerts := { s.alerts with holdOverflow := true } }

/-- R35: the sector of a bank whose erase is in flight or suspended. -/
def erasingSector (s : State) (i : BankId) : Option Nat :=
  match s.flash.erase with
  | some ⟨.sector j n, _⟩ => if j = i then some n else none
  | _ => none

/-- R36: the sector of a held record moves forward on the erase list. -/
def forwardSector (k : Bank) (erasing : Option Nat) (sector : Nat) : List Nat :=
  if erasing = some sector then k.eraseList
  else if k.header = some .waiting ∧ 0 ∈ k.eraseList then
    if sector = 0 then k.eraseList
    else 0 :: sector :: k.eraseList.filter fun x => x ≠ 0 && x ≠ sector
  else sector :: k.eraseList.filter (· ≠ sector)

/-- R76, R26: a record's mark has left MISSING: it leaves the want slots and is staged. -/
def recordTaken (b : Batch) (n : Nat) (r : Record) (s : State) : State :=
  stageRecord b n r (leaveSlots b n s)

/-- R32, R37, R39: a record joins the hold queue, or is dropped. -/
def joinHoldQueue (i : BankId) (b : Batch) (n : Nat) (r : Record) (s : State) : State :=
  if s.holdQueue.length < holdPlaces then
    let k := s.bank i
    let k := { k.setMark n .held with eraseList := forwardSector k (erasingSector s i) (sectorOf n) }
    recordTaken b n r { s.setBank i k with holdQueue := s.holdQueue ++ [⟨i, n, r⟩] }
  else dropRecord s

/-- R41: a record joins the unstored list, or is dropped. -/
def joinUnstored (i : BankId) (b : Batch) (n : Nat) (r : Record) (s : State) : State :=
  if s.unstored.length < unstoredPlaces then
    recordTaken b n r
      { s.setBank i ((s.bank i).setMark n .unstored) with unstored := s.unstored ++ [⟨i, n, r⟩] }
  else dropRecord s

/-- R32: a record is programmed: STORED when the request is accepted, HELD while it waits. -/
def programRecord (i : BankId) (b : Batch) (n : Nat) (r : Record) (s : State) : State :=
  recordTaken b n r
    (flashRequest (.record i b n r) (s.setBank i ((s.bank i).setMark n .held)))

/-- R32: the three ways of a record taken into a bank. -/
def takeRecord (i : BankId) (b : Batch) (n : Nat) (r : Record) (s : State) : State :=
  if sectorOf n ∈ (s.bank i).eraseList then joinHoldQueue i b n r s
  else if n ∈ (s.bank i).spoiled then joinUnstored i b n r s
  else programRecord i b n r s

/-- R29: record `n` of batch `b` arrives. -/
def logRecord (b : Batch) (n : Nat) (r : Record) (s : State) : State :=
  match s.bankOf b with
  | some i =>
    let k := s.bank i
    if k.count < n then
      let s := s.setBank i { k with beyond := bump k.beyond }
      if s.nextBatch = some b then headerRequest b s else s
    else if (k.mark n).isSome then s.setBank i { k with duplicates := bump k.duplicates }
    else takeRecord i b n r s
  | none => if s.newerThanBoth b then headerRequest b s else s

/-- R29: the records of one frame or command, in the order they are carried. -/
def logRecords (b : Batch) : List Record → State → State
  | [], s => s
  | r :: rs, s => logRecords b rs (logRecord b (recSeq r) r s)

/-! ### A sector erase completes (R38) -/

/-- R38: the hold-queue records of a bank sector as program requests. -/
def heldPrograms (s : State) (i : BankId) (sector : Nat) : List FlashOp :=
  (s.holdQueue.filter fun k => k.bank = i && sectorOf k.seq = sector).map fun k =>
    .record i ((s.bank i).batch.getD 0) k.seq k.record

/-- R25: the count place of a bank that a request will program. -/
def FlashOp.placeOf (i : BankId) : FlashOp → Option Nat
  | .countPlace j p _ => if j = i then some p else none
  | _ => none

/-- R21: the bank sector that a request programs. -/
def FlashOp.sectorIn (i : BankId) : FlashOp → Option Nat
  | .record j _ n _ => if j = i then some (sectorOf n) else none
  | .header j _ _ _ => if j = i then some 0 else none
  | .mark j _ => if j = i then some 0 else none
  | .countPlace j _ _ => if j = i then some 0 else none
  | _ => none

/-- R21: the requests of a list that program a bank sector. -/
def programsInto (i : BankId) (sector : Nat) (ops : List FlashOp) : List FlashOp :=
  ops.filter fun op => op.sectorIn i = some sector

/-- R21: a request programs for the batch the bank now carries: a record of that batch, or a field of its
WRITTEN header. -/
def Bank.ownsProgram (k : Bank) (op : FlashOp) : Bool :=
  (k.role = .next || k.role = .live) &&
  match op with
  | .record _ b _ _ => k.batch = some b
  | _ => k.header = some .written

/-- R21, R36: an erased sector is clean and off the list. A sector that an accepted request will yet
program stays dirty, and one into which a program for an earlier batch is asked stays on the list, to be
erased again (log entry 57). R25: the erase of sector 0 leaves every count place erased but those still
to be programmed. -/
def Bank.cleanSector (i : BankId) (sector : Nat) (accepted waiting : List FlashOp) (k : Bank) : Bank :=
  let asked := programsInto i sector (accepted ++ waiting)
  { k with
    placesUsed := if sector = 0 then asked.filterMap (FlashOp.placeOf i) else k.placesUsed
    dirty := if programsInto i sector accepted = [] then k.dirty.filter (· ≠ sector) else insertNat sector k.dirty
    eraseList := if asked.all k.ownsProgram then k.eraseList.filter (· ≠ sector) else k.eraseList
    spoiled := k.spoiled.filter fun n => sectorOf n ≠ sector }

/-- R38, step 1: what becomes of the header whose sector is erased. One that waits is programmed once its
sector is off the list (R23); that of a RETIRED bank is absent. The header of a bank that carries its batch,
listed by the scan (R44), is lost in flash; its state stays WRITTEN and nothing is programmed for it (log
entry 54). -/
def headerErased (i : BankId) (s : State) : State :=
  let k := s.bank i
  if k.header = some .waiting then (if 0 ∈ k.eraseList then s else programHeader i s)
  else if k.role = .retired then s.setBank i { k with header := none }
  else s

/-- R38, step 2: the held records of a sector that is off the erase list are programmed. -/
def programHeld (i : BankId) (sector : Nat) (s : State) : State :=
  if sector ∈ (s.bank i).eraseList then s
  else
    flashRequests (heldPrograms s i sector)
      { s with holdQueue := s.holdQueue.filter fun k => !(k.bank = i && sectorOf k.seq = sector) }

/-- R38: the erase of a bank sector is complete. -/
def sectorErased (i : BankId) (sector : Nat) (s : State) : State :=
  let s := { s.setBank i ((s.bank i).cleanSector i sector s.flash.queue s.flash.waiting) with
    mem := eraseSector s.mem i sector, flash := { s.flash with erase := none } }
  programHeld i sector (if sector = 0 then headerErased i s else s)

end Sys2Proof.Machine
end

