-- ==== Sys2Proof/Machine/Flip.lean ====
section
/-! DEFINITION. The flip coordinator: holds, the flip, call periods and echoes (file 07, R146 to R161). -/

namespace Sys2Proof.Machine

open Sys2Proof.Config

/-! ### The call and the hold (R149, R150) -/

/-- R150: the hold timer runs 3 s and the gap timer 750 ms. -/
def beginHold (s : State) : State :=
  { s with flip := { s.flip with hold := some ⟨s.now + holdTime, s.now + gapTime⟩ } }

/-- R149: a call for the next batch that is honoured. -/
def honourCall (s : State) : State :=
  match s.flip.hold with
  | none => beginHold s
  | some h => { s with flip := { s.flip with hold := some { h with gapAt := s.now + gapTime } } }

/-- R160: the quiet timer restarts with a fresh draw. -/
def restartQuiet (s : State) : State :=
  match s.flip.echo with
  | some e =>
    { s.drew with flip := { s.flip with
        echo := some { e with quietAt := s.now + drawn (ms 400) (ms 600) s } } }
  | none => s

/-- R149: a FLIP frame for batch `b` is heard. -/
def hearFlip (b : Batch) (s : State) : State :=
  if s.nextBatch = some b then
    if s.livePhase = .swapping then
      { s with counters := { s.counters with callsIgnored := bump s.counters.callsIgnored } }
    else honourCall s
  else if s.liveBatch = some b then
    if s.flip.echo.map Echo.batch = some b then restartQuiet s else s
  else if s.newerThanBoth b then headerRequest b s
  else s

/-! ### The flip (R31, R152, R153) -/

/-- R153: what the flip makes of an entry; `b` is the new live batch, `old` the batch that was live. -/
def flipEntry (s : State) (b : Batch) (old : Option Batch) (e : Entry) : Entry :=
  match e.pending with
  | none => e
  | some p =>
    if some p.batch ≠ old then e
    else
      match e.state with
      | .swapping =>
        match e.deferred with
        | some d => { e with deferred := none }.pend b d (s.face b d)
        | none => { e with pending := none }
      | .absent =>
        { e with missed := true, pending := e.deferred.map fun d => ⟨b, d, none⟩, deferred := none }
      | .faulted =>
        { e with missed := true, pending := e.deferred.map fun d => ⟨b, d, none⟩, deferred := none }
      | _ => resolvePending s (some b) { e with missed := true }

/-- R153: an entry is missed at the flip: pending on the old live batch and not SWAPPING. -/
def missedAtFlip (old : Option Batch) (e : Entry) : Bool :=
  e.pending.isSome && e.pending.map PendingRecord.batch = old && e.state ≠ .swapping

/-- R153: one entry at the flip. The PRELOAD and SWAP jobs for an old record are withdrawn. -/
def flipAt (b : Batch) (old : Option Batch) (i : Nat) (s : State) : State :=
  let e := s.entry i
  let missed := missedAtFlip old e
  let s := if missed then withdrawAt i (fun k => k = .preload || k = .swap) s else s
  let s := moveEntry i (flipEntry s b old e) s
  if missed ∧ (s.entry i).state = .staged then askAt i .preload none s else s

/-- R153, R154: every entry with a pending record is treated; the missed alert is latched. -/
def flipEntries (b : Batch) (old : Option Batch) (s : State) : State :=
  let anyMissed := s.dir.entries.any fun c => missedAtFlip old c.2
  let s := (s.slotsWhere fun e => e.pending.isSome).foldl (fun s i => flipAt b old i s) s
  if anyMissed then { s with alerts := { s.alerts with missed := true } } else s

/-- R31: the two banks change role together, the LIVE mark queued before the RETIRED one. -/
def flipBanks (i : BankId) (s : State) : State :=
  let old := s.bankIn .live
  let s := programMark i false (s.setBank i { s.bank i with role := .live })
  match old with
  | some j => retireBank j s
  | none => s

/-- R159: the echo period for batch `b` begins. -/
def beginEcho (b : Batch) (s : State) : State :=
  let s := endEcho s
  { s.drew with flip := { s.flip with
      echo := some ⟨b, s.now + echoTime, s.now + drawn (ms 400) (ms 600) s⟩ } }

/-- R79, R85: the repair engine lets go of the old live batch. -/
def forgetBatch (old : Option Batch) (s : State) : State :=
  match old with
  | some x => discardAnswers x (releaseSlotsOf x s)
  | none => s

/-- R152: the station flips to its next batch. -/
def flipNow (s : State) : State :=
  match s.bankIn .next with
  | none => endHold s
  | some i =>
    let b := (s.bank i).batch.getD 0
    let old := s.liveBatch
    beginEcho b (forgetBatch old (flipEntries b old (endHold (flipBanks i s))))

/-! ### Calls and echoes (R157, R158, R160) -/

/-- R157, R158: a call period for `b` starts; its first frame takes the place granted. -/
def beginCall (b : Batch) (s : State) : State :=
  let s := endCall s
  enqueueFrame .call (.flip b false)
    { s with flip := { s.flip with call := some ⟨b, s.now + callTime, s.now + callTick⟩ } }

/-- R158: a call frame of the period is queued or waits for a place. -/
def callOut (s : State) : Bool :=
  s.trunk.queue.any (fun f => f.tag = .call) || s.trunk.waiters.contains .call

/-- R160: an echo frame of this station for `b` is queued or waits for a place. -/
def echoOut (b : Batch) (s : State) : Bool :=
  s.trunk.queue.any (fun f => f.frame = .flip b true) || s.trunk.waiters.contains .echo

/-- R158: a tick of the call timer. -/
def callTicked (c : Call) (s : State) : State :=
  let s := { s with flip := { s.flip with call := some { c with tickAt := c.tickAt + callTick } } }
  if callOut s then s else offer .call s

/-- R160: the quiet timer has expired. -/
def quietExpired (e : Echo) (s : State) : State :=
  let s := restartQuiet s
  if echoOut e.batch s then s else offer .echo s

end Sys2Proof.Machine
end

