-- ==== Sys2Proof/Machine/Rails.lean ====
section
/-! DEFINITION. The rail engines: selection and opening of sessions, outcomes, provings, the ends of
the sessions of each kind of job, and rail power (files 06 and 07, R112 to R145). -/

namespace Sys2Proof.Machine

open Sys2Proof.Config

/-! ### Selection (R129 to R131) -/

/-- R129: the place of a kind in the order. -/
def jobClass : JobKind → Nat
  | .prove => 1 | .census => 2 | .poll => 3 | .swap => 4 | .preload => 5 | .assign => 6 | .revisit => 7

/-- R129: job `a` stands before job `b`. -/
def Job.before (a b : Job) : Bool :=
  jobClass a.kind < jobClass b.kind || (jobClass a.kind = jobClass b.kind && a.pos.val < b.pos.val)

/-- R130: every CENSUS job of the list has delivered its first report. -/
def Rail.censusDelivered (r : Rail) : Bool :=
  r.work.all fun j => j.kind ≠ .census || j.delivered

/-- R130, R133: the gates of SWAP and REVISIT. -/
def gateOpen (s : State) (r : Fin 8) (j : Job) : Bool :=
  match j.kind with
  | .swap => swappingOn s r < s.budget && (s.rail r).censusDelivered
  | .revisit => j.identityDue || swappingOn s r < s.budget
  | _ => true

/-- R128: a job is eligible on a rail whose state runs it. -/
def eligible (s : State) (r : Fin 8) (j : Job) : Bool :=
  !j.refused && (j.due.isNone || expired j.due s) && gateOpen s r j

/-- R129: the first of a list's jobs in the order. -/
def firstJob : List Job → Option Job
  | [] => none
  | j :: js =>
    match firstJob js with
    | none => some j
    | some k => if k.before j then some k else some j

/-- R121, R122, R129: what a rail would run next; nothing while its port is not enabled or its power
is absent. -/
def nextWork (s : State) (r : Fin 8) : Option (SessionKind × Fin 64) :=
  let x := s.rail r
  if !x.enabled || !x.power then none
  else if x.proveDue then some (.job .prove, 0)
  else
    match x.state with
    | .unproven => none
    | .dead => none
    | _ =>
      match x.refusal with
      | some (k, p) => some (.refusalCheck k, p)
      | none => (firstJob (x.work.filter (eligible s r))).map fun j => (.job j.kind, j.pos)

/-! ### Opening a session (R129, R131, R135, R136, R138) -/

/-- A change of one rail. -/
def onRail (r : Fin 8) (f : Rail → Rail) (s : State) : State :=
  s.setRail r (f (s.rail r))

/-- R121, R132 to R137: the command of a label session that opens; R8: the page of a PRELOAD is composed
from its record here. A proving names none. -/
def sessionCommand (r : Fin 8) (kind : SessionKind) (p : Fin 64) (record : Option (Batch × Nat)) (s : State) :
    Option LabelCommand :=
  match kind with
  | .refusalCheck _ => some .status
  | .job .prove => none
  | .job .poll => some .status
  | .job .swap => some .swap
  | .job .preload => (record.bind fun x => s.face x.1 x.2).map fun f => .writePending f.page
  | .job .assign => (s.entry (slotOf r p)).article.map fun a => .assign (articleBytes a)
  | .job kind =>
    match ((s.rail r).job? kind p).bind Job.answered with
    | some _ => some .ident
    | none => some .status

/-- R131: the rail's engine opens a session on it, whose command is fixed here (R96); the pointer then
names the rail. -/
def openSession (r : Fin 8) (kind : SessionKind) (p : Fin 64) (record : Option (Batch × Nat)) (s : State) : State :=
  s.setEngine (engineOf r)
    { cross := isCross r, activity := .session r kind p record, command := sessionCommand r kind p record s }

/-- The session of a job opens. -/
def openJob (r : Fin 8) (kind : JobKind) (p : Fin 64) (record : Option (Batch × Nat)) (s : State) : State :=
  openSession r (.job kind) p record (onRail r (Rail.updateJob kind p fun j => { j with running := true }) s)

/-- A job leaves the list. -/
def removeJob (r : Fin 8) (kind : JobKind) (p : Fin 64) (s : State) : State :=
  withdrawJobs r p (· = kind) s

/-- R123, R126: a proving starts, or goes on; at its start the fault-burst record is emptied. -/
def openProving (r : Fin 8) (s : State) : State :=
  openSession r (.job .prove) 0 none
    (onRail r (fun x =>
      match x.proving with
      | some _ => x
      | none => { x with proving := some ⟨x.state, 0, 0⟩, burst := [] }) s)

/-- R138: a WRITE_PENDING session opens on a STAGED entry, with its preload record. -/
def openPreload (r : Fin 8) (p : Fin 64) (x : PendingRecord) (s : State) : State :=
  let i := slotOf r p
  openJob r .preload p (some (x.batch, x.seq)) (moveEntry i { s.entry i with state := .preloading } s)

/-- R40: the mark of a record of a batch. -/
def recordMark (s : State) (b : Batch) (n : Nat) : Option Mark :=
  (s.bankOf b).bind fun i => (s.bank i).mark n

/-- R135: a PRELOAD is selected: its record is asked for. True where the engine is then busy. -/
def selectPreload (r : Fin 8) (p : Fin 64) (s : State) : State × Bool :=
  let e := s.entry (slotOf r p)
  match e.pending with
  | none => (removeJob r .preload p s, false)
  | some x =>
    if e.state ≠ .staged then (removeJob r .preload p s, false)
    else
      match recordMark s x.batch x.seq with
      | none => (removeJob r .preload p s, false)
      | some .stored =>
        (flashRequest (.read (.preload (engineOf r)) x.batch x.seq)
          (s.setActivity (engineOf r) (.fetching r p x.batch x.seq)), true)
      | some _ => (openPreload r p x s, true)

/-- R129, R136: the selected work is taken up. True where the engine is then busy; otherwise the job
has left the list. -/
def takeUp (r : Fin 8) (kind : SessionKind) (p : Fin 64) (s : State) : State × Bool :=
  match kind with
  | .refusalCheck k => (openSession r (.refusalCheck k) p none (onRail r (fun x => { x with refusal := none }) s), true)
  | .job .prove => (openProving r s, true)
  | .job .preload => selectPreload r p s
  | .job .swap =>
    if readyToSwap s (s.entry (slotOf r p)) then (openJob r .swap p none s, true)
    else (removeJob r .swap p s, false)
  | .job k => (openJob r k p none s, true)

/-- R131: the rail the pointer does not name comes first. -/
def railOrder (s : State) (k : Fin 4) : List (Fin 8) :=
  if (s.engine k).cross then [homeRail k, crossRail k] else [crossRail k, homeRail k]

/-- R131: an idle engine chooses and opens its next session. -/
def chooseNext (k : Fin 4) : Nat → State → State
  | 0, s => s
  | fuel + 1, s =>
    match (s.engine k).activity with
    | .idle =>
      match (railOrder s k).findSome? fun r => (nextWork s r).map fun w => (r, w) with
      | none => s
      | some (r, kind, p) =>
        match takeUp r kind p s with
        | (s', true) => s'
        | (s', false) => chooseNext k fuel s'
    | _ => s

/-- Every job of both rails can leave its list without a session at most once. -/
def chooseFuel (s : State) (k : Fin 4) : Nat :=
  (s.rail (homeRail k)).work.length + (s.rail (crossRail k)).work.length + 1

def allEngines : List (Fin 4) := [0, 1, 2, 3]

/-- R131: every idle engine with eligible work opens a session. -/
def railsSettle (s : State) : State :=
  allEngines.foldl (fun s k => chooseNext k (chooseFuel s k) s) s

/-- R135: a preload record has been read; the session opens if the selection still stands. -/
def preloadReturned (k : Fin 4) (b : Batch) (n : Nat) (s : State) : State :=
  match (s.engine k).activity with
  | .fetching r p b' n' =>
    if b' ≠ b ∨ n' ≠ n then s
    else
      let s := s.setActivity k .idle
      let e := s.entry (slotOf r p)
      match e.pending with
      | none => s
      | some x =>
        if nextWork s r ≠ some (.job .prove, 0) ∧ ((s.rail r).job? .preload p).isSome
            ∧ e.state = .staged ∧ x.batch = b ∧ x.seq = n then
          if (s.record b n).isSome then openPreload r p x s else removeJob r .preload p s
        else s
  | _ => s

/-! ### Outcomes and give-ups (R119, R120, R126) -/

/-- R119: the outcome classes that count by R120; PREEMPTED and POWER_LOST count nothing. -/
inductive OutcomeClass where
  | done | addressRefused | opcodeRefused | checkRefused | stretchTimeout
deriving DecidableEq, Repr

/-- R119: the class of a session that ran its course. -/
def outcomeOf : SessionEnd → OutcomeClass
  | .done => .done | .addressRefused => .addressRefused | .opcodeRefused => .opcodeRefused
  | .checkRefused => .checkRefused

/-- R126: a CHECK_REFUSED or STRETCH_TIMEOUT outcome at `now` enters the fault-burst record, which
keeps the last 10 s; the eighth makes a proving due. -/
def Rail.burstAt (now : Micros) (r : Rail) : Rail :=
  let r := { r with burst := (r.burst.filter fun t => now ≤ t + tenSeconds) ++ [now] }
  if 8 ≤ r.burst.length then r.prove else r

/-- R120: the give-up of a family. That of a POLL which R174 makes FAULTED is `pollFailed`'s (log entry 58). -/
def giveUpFamily (f : Family) (i : Nat) (s : State) : State :=
  match f with
  | .address => giveUpEntry i .absent s
  | _ => faultEntry i s

/-- R120: a failure of a family at a slot; the third in a row is a give-up. -/
def countFailure (f : Family) (i : Nat) (s : State) : State :=
  let e := s.entry i
  let n := if e.family = f then e.attempts + 1 else 1
  if 3 ≤ n then giveUpFamily f i (s.setEntry i { e with attempts := 0, family := .none })
  else s.setEntry i { e with attempts := n, family := f }

/-- R120, R126: an outcome of a session at a position counts. -/
def countOutcome (r : Fin 8) (p : Fin 64) (o : OutcomeClass) (s : State) : State :=
  let i := slotOf r p
  match o with
  | .done => s.setEntry i { s.entry i with attempts := 0, family := .none }
  | .addressRefused => countFailure .address i s
  | .opcodeRefused => s
  | .checkRefused => countFailure .check i (onRail r (Rail.burstAt s.now) s)
  | .stretchTimeout => countFailure .check i (onRail r (Rail.burstAt s.now) s)

/-- R121: a job is refused and waits for its refusal check; with a proving due it waits for nothing. -/
def refuseJob (r : Fin 8) (kind : JobKind) (p : Fin 64) (s : State) : State :=
  onRail r (fun x =>
    if (x.job? kind p).isNone || x.proveDue then x
    else { x.updateJob kind p fun j => { j with refused := true } with refusal := some (kind, p) }) s

/-- R120, R128: a job whose session failed is eligible again at once; a REVISIT whose failure was a
give-up falls due 60 s later. -/
def retryJob (r : Fin 8) (kind : JobKind) (p : Fin 64) (gaveUp : Bool) (s : State) : State :=
  onRail r (Rail.updateJob kind p fun j =>
    if kind = .revisit ∧ gaveUp then Job.make kind p (some (s.now + revisitTime))
    else { j with due := none, answered := none, refused := false, running := false }) s

/-- R120: the outcome `o` is the third failure of its family in a row. -/
def givesUp (e : Entry) (o : OutcomeClass) : Bool :=
  match o with
  | .addressRefused => e.family = .address && 2 ≤ e.attempts
  | .checkRefused => e.family = .check && 2 ≤ e.attempts
  | .stretchTimeout => e.family = .check && 2 ≤ e.attempts
  | _ => false

/-- R120: the session of a job failed with outcome `o`. -/
def failJob (r : Fin 8) (kind : JobKind) (p : Fin 64) (o : OutcomeClass) (s : State) : State :=
  let gaveUp := givesUp (s.entry (slotOf r p)) o
  retryJob r kind p gaveUp (countOutcome r p o s)

/-! ### Provings (R122 to R125) -/

/-- R123: one step of the 11-stage generator, stage 1 the most significant bit. -/
def prbsStep (g : BitVec 11) : BitVec 11 :=
  (BitVec.ofBool (g.getLsbD 0 ^^ g.getLsbD 2)).append (g.extractLsb' 1 10)

/-- R123: the first `n` output bits from a generator state. -/
def prbsBits : Nat → BitVec 11 → List Bool
  | 0, _ => []
  | n + 1, g =>
    let g' := prbsStep g
    g'.getLsbD 10 :: prbsBits n g'

/-- R123: a block's 512 bits of the pattern, blocks numbered from 0. -/
def blockBits (block : Nat) : List Bool :=
  prbsBits 512 (Nat.iterate prbsStep (512 * block) 0x7FF#11)

/-- How many bits of two lists differ. -/
def mismatches (a b : List Bool) : Nat :=
  ((a.zip b).filter fun p => p.1 != p.2).length

/-- R123: the most mismatched bits in one of the `n` windows of 64. -/
def worstWindow : Nat → List Bool → List Bool → Nat
  | 0, _, _ => 0
  | n + 1, a, b => max (mismatches (a.take 64) (b.take 64)) (worstWindow n (a.drop 64) (b.drop 64))

/-- R124: the new state a full proving gives by its worst window. -/
def provenState (worst : Nat) : RailState :=
  if 8 ≤ worst then .dead else if 2 ≤ worst then .degraded else .proven

def allPositions : List (Fin 64) := List.finRange 64

/-- R125: the entries of a rail that are not VACANT. -/
def servedSlots (r : Fin 8) (s : State) : List Nat :=
  s.dir.entries.filterMap fun c => if railOf c.1 = r ∧ c.2.state ≠ .vacant then some c.1 else none

/-- R125: a proving leaves a rail DEAD. The attempt counts and failure families of its entries stay as
they stand (log entry 48). -/
def railDied (r : Fin 8) (s : State) : State :=
  let s := onRail r (fun x => { x with state := .dead, reproveAt := some (s.now + reproveTime) }) s
  (servedSlots r s).foldl (fun s i => giveUpEntry i .faulted s)
    { s with alerts := { s.alerts with railDead := true } }

/-- R128, R168, R170: a CENSUS job for each position. -/
def askCensus (r : Fin 8) (s : State) : State :=
  let s := allPositions.foldl (fun s p => askJob r .census p none s) s
  if isCross r then
    onRail r (fun x => { x with censusOpen := true, gave := if x.censusOpen then x.gave else [] }) s
  else s

/-- R124: a proving that began from `began` ends in `result`. -/
def proved (r : Fin 8) (began result : RailState) (s : State) : State :=
  let s := onRail r (fun x => { x.withdraw (fun j => j.kind = .prove) with proving := none, reproveAt := none }) s
  if result = .dead then railDied r s
  else
    let s := onRail r (fun x => { x with state := result }) s
    if began = .unproven ∨ began = .dead then askCensus r s else s

/-- R123, R124: session number `v.step` of a proving (0 LOOP_ON, odd PATTERN_WRITE, even PATTERN_READ,
9 LOOP_OFF) ends with outcome `o`. -/
def provingStep (r : Fin 8) (v : Proving) (o : OutcomeClass) (read : List Byte) (s : State) : State :=
  let s := if o = .checkRefused ∨ o = .stretchTimeout then onRail r (Rail.burstAt s.now) s else s
  if 9 ≤ v.step then proved r v.began (provenState v.worst) s
  else if o = .done then
    let worst :=
      if v.step ≠ 0 ∧ v.step % 2 = 0 then
        max v.worst (worstWindow 8 (blockBits (v.step / 2 - 1)) (bitsOf read))
      else v.worst
    onRail r (fun x => { x with proving := some { v with step := v.step + 1, worst := worst } }) s
  else if v.step = 0 ∧ o = .addressRefused then proved r v.began .degraded s
  else proved r v.began .dead s

/-! ### Ends of sessions -/

/-- The session of a kind that engine `k` carries. -/
def sessionOf (s : State) (k : Fin 4) (kind : SessionKind) :
    Option (Fin 8 × Fin 64 × Option (Batch × Nat)) :=
  match (s.engine k).activity with
  | .session r kind' p record => if kind' = kind then some (r, p, record) else none
  | _ => none

/-- The job whose session is in flight, if it is still on the list. -/
def Rail.running? (r : Rail) (kind : JobKind) (p : Fin 64) : Option Job :=
  (r.job? kind p).filter fun j => j.running

/-- A change of a job on the list. -/
def changeJob (r : Fin 8) (kind : JobKind) (p : Fin 64) (f : Job → Job) (s : State) : State :=
  onRail r (Rail.updateJob kind p f) s

/-! #### CENSUS and REVISIT (R132, R133) -/

/-- R132: a STATUS of a CENSUS or REVISIT job has ended DONE. -/
def statusEnded (r : Fin 8) (kind : JobKind) (p : Fin 64) (j : Job) (a : StatusAnswer) (s : State) : State :=
  let i := slotOf r p
  let first := j.firstStatus.getD s.now
  if a.state = .showing then
    changeJob r kind p (fun j =>
      { j with due := none, answered := some a, firstStatus := some first, running := false }) s
  else if j.identityDue ∧ first + tenSeconds ≤ s.now then
    let s := removeJob r kind p s
    if (s.entry i).article.isNone then deliverReport i a none true s else s
  else
    let deliver := !j.identityDue && (s.entry i).article.isSome
    let s := changeJob r kind p (fun j =>
      { j with
        due := some (s.now + pollTime), identityDue := true, delivered := j.delivered || deliver
        firstStatus := some first, running := false }) s
    if deliver then deliverReport i a none (kind = .revisit) s else s

/-- R132: both sessions have ended DONE: the job leaves the list and delivers its report. -/
def identEnded (r : Fin 8) (kind : JobKind) (p : Fin 64) (a : StatusAnswer) (id : IdentAnswer) (s : State) : State :=
  deliverReport (slotOf r p) a (some id) false (removeJob r kind p s)

/-- R121, R132: an IDENT refused by its opcode waits for the refusal check and begins again with
STATUS; a STATUS refused so leaves its job eligible (log entry 22). -/
def identRefused (r : Fin 8) (kind : JobKind) (p : Fin 64) (j : Job) (s : State) : State :=
  let s := retryJob r kind p false s
  if j.answered.isSome then refuseJob r kind p s else s

/-- R132, R133: a session of a CENSUS or REVISIT job ends. -/
def inquiryEnded (kind : JobKind) (k : Fin 4) (e : SessionEnd) (a : Answer) (s : State) : State :=
  match sessionOf s k (.job kind) with
  | none => s
  | some (r, p, _) =>
    let idle := s.setActivity k .idle
    match (s.rail r).running? kind p with
    | none => countOutcome r p (outcomeOf e) idle
    | some j =>
      match e, a, j.answered with
      | .done, .status st, none => statusEnded r kind p j st (countOutcome r p .done idle)
      | .done, .ident id, some st => identEnded r kind p st id (countOutcome r p .done idle)
      | .done, _, _ => s
      | .opcodeRefused, _, _ => identRefused r kind p j idle
      | e, _, _ => failJob r kind p (outcomeOf e) idle

/-- R132: an identity-due job ends 10 s after its first STATUS. -/
def identityEnded (r : Fin 8) (kind : JobKind) (p : Fin 64) (s : State) : State :=
  match (s.rail r).job? kind p with
  | none => s
  | some j =>
    if j.identityDue ∧ !j.running ∧ j.answered.isNone ∧ expired (j.firstStatus.map (· + tenSeconds)) s then
      let s := removeJob r kind p s
      if (s.entry (slotOf r p)).article.isNone then
        deliverReport (slotOf r p) ⟨.refreshing, none, none⟩ none true s
      else s
    else s

/-! #### POLL (R134, R143, R144) -/

/-- R100, step 3 applies to an entry and an answer. -/
def stepThree (e : Entry) (a : StatusAnswer) : Bool :=
  match e.pending with
  | none => false
  | some p =>
    !(a.page.isSome && a.page = p.check.map fun c => (p.batch, c)) && a.shown = some p.batch

/-- R143, last row: a SHOWING label and no swap record. -/
def pollUnrecorded (i : Nat) (a : StatusAnswer) (s : State) : State :=
  let done := stepThree (s.entry i) a
  let s := evaluateReport i a none true false s
  if done then
    { s.setEntry i { s.entry i with missed := false } with
      counters := { s.counters with swapsDone := bump s.counters.swapsDone } }
  else s

/-- R143, R144: a POLL of a SWAPPING entry has ended DONE. -/
def pollAnswered (i : Nat) (a : StatusAnswer) (s : State) : State :=
  let e := s.entry i
  if a.state = .refreshing then
    if s.now < e.refreshStart.getD 0 + tenSeconds then pollAt i (s.now + pollTime) s else faultEntry i s
  else
    match e.swapRecord with
    | none => pollUnrecorded i a s
    | some w =>
      if a.shown = some w.batch then completeSwap i w s
      else evaluateReport i a none true false (s.setEntry i { e with swapRecord := none })

/-- R120, R134: a POLL session fails with outcome `o`. R174: on a cross rail in YIELDING a give-up makes the
entry FAULTED whatever the family, where R120 and R102 make it ABSENT for family ADDRESS (log entry 58). -/
def pollFailed (r : Fin 8) (p : Fin 64) (o : OutcomeClass) (s : State) : State :=
  let i := slotOf r p
  let e := s.entry i
  if o = .addressRefused ∧ givesUp e o ∧ isCross r ∧ s.adopt.holder = .yielding then
    faultEntry i (s.setEntry i { e with attempts := 0, family := .none })
  else if ((s.rail r).running? .poll p).isSome then failJob r .poll p o s
  else countOutcome r p o s

/-- R134: a POLL session ends. The answer for an entry still SWAPPING is taken though its job has been
withdrawn meanwhile (log entry 14). -/
def pollEnded (k : Fin 4) (e : SessionEnd) (a : Answer) (s : State) : State :=
  match sessionOf s k (.job .poll) with
  | none => s
  | some (r, p, _) =>
    let i := slotOf r p
    let idle := s.setActivity k .idle
    match e, a with
    | .done, .status st =>
      let s := changeJob r .poll p (fun j => { j with running := false }) (countOutcome r p .done idle)
      if (s.entry i).state = .swapping then pollAnswered i st s else s
    | .done, _ => s
    | e, _ => pollFailed r p (outcomeOf e) idle

/-! #### SWAP (R136, R140) -/

/-- R140: a SWAP has ended DONE on a PRELOADED entry. -/
def swapDone (r : Fin 8) (p : Fin 64) (s : State) : State :=
  let i := slotOf r p
  let e := s.entry i
  if e.state = .preloaded then
    pollAt i (s.now + pollTime)
      (moveEntry i { e with state := .swapping, refreshStart := some s.now, swapRecord := e.pending }
        (removeJob r .swap p s))
  else s

/-- R140: a SWAP session ends with an outcome of R119. One that ends DONE on an entry still PRELOADED
starts its refresh though its job has been withdrawn meanwhile (R173). -/
def swapEnded (k : Fin 4) (o : OutcomeClass) (s : State) : State :=
  match sessionOf s k (.job .swap) with
  | none => s
  | some (r, p, _) =>
    let s := s.setActivity k .idle
    match (s.rail r).running? .swap p, o with
    | _, .done => swapDone r p (countOutcome r p .done s)
    | none, o => countOutcome r p o s
    | some _, .opcodeRefused => refuseJob r .swap p (retryJob r .swap p false s)
    | some _, o => failJob r .swap p o s

/-! #### PRELOAD (R135, R138) -/

/-- R138: the state a PRELOADING entry takes at its session's end. -/
def preloadResult (e : Entry) (o : OutcomeClass) (record : Option (Batch × Nat)) : EntryState :=
  if o = .done ∧ e.pending.isSome ∧ e.pending.map (fun x => (x.batch, x.seq)) = record then .preloaded
  else .staged

/-- R138: what the end of a PRELOAD session does to its entry. -/
def preloadSettled (i : Nat) (o : OutcomeClass) (record : Option (Batch × Nat)) (s : State) : State :=
  let e := s.entry i
  if e.state = .preloading then
    let s' := moveEntry i { e with state := preloadResult e o record } s
    if preloadResult e o record = .preloaded then
      { s' with counters := { s'.counters with preloadsDone := bump s'.counters.preloadsDone } }
    else s'
  else s

/-- R138: a PRELOAD is asked where its session ended with its entry STAGED. -/
def askIfStaged (r : Fin 8) (p : Fin 64) (s : State) : State :=
  if (s.entry (slotOf r p)).state = .staged then askJob r .preload p none s else s

/-- R135, R138: a PRELOAD session ends with an outcome of R119. -/
def preloadEnded (k : Fin 4) (o : OutcomeClass) (s : State) : State :=
  match sessionOf s k (.job .preload) with
  | none => s
  | some (r, p, record) =>
    let i := slotOf r p
    let s := s.setActivity k .idle
    let held := ((s.rail r).running? .preload p).isSome
    match o with
    | .done =>
      let s := preloadSettled i .done record (countOutcome r p .done s)
      askIfStaged r p (if held then removeJob r .preload p s else s)
    | .opcodeRefused =>
      let s := askIfStaged r p (preloadSettled i .opcodeRefused record s)
      if held then refuseJob r .preload p (retryJob r .preload p false s) else s
    | o =>
      let s := preloadSettled i o record s
      askIfStaged r p (if held then failJob r .preload p o s else countOutcome r p o s)

/-! #### ASSIGN (R137) -/

/-- R137: an ASSIGN session ends with an outcome of R119. -/
def assignEnded (k : Fin 4) (o : OutcomeClass) (s : State) : State :=
  match sessionOf s k (.job .assign) with
  | none => s
  | some (r, p, _) =>
    let s := s.setActivity k .idle
    match (s.rail r).running? .assign p, o with
    | none, o => countOutcome r p o s
    | some _, .done => removeJob r .assign p (countOutcome r p .done s)
    | some _, .opcodeRefused => refuseJob r .assign p (retryJob r .assign p false s)
    | some _, o => failJob r .assign p o s

/-! #### Refusal checks (R121, R145) -/

/-- R121, R145: the refused job becomes eligible 500 ms after the check. -/
def retryLater (r : Fin 8) (kind : JobKind) (p : Fin 64) (s : State) : State :=
  changeJob r kind p (fun j => { j with refused := false, due := some (s.now + pollTime) }) s

/-- R145: the check of a refused SWAP has answered SHOWING. -/
def swapChecked (r : Fin 8) (p : Fin 64) (a : StatusAnswer) (s : State) : State :=
  let i := slotOf r p
  let e := s.entry i
  match e.pending with
  | none => retryJob r .swap p false s
  | some x =>
    if a.page.isSome ∧ a.page = x.check.map (fun c => (x.batch, c)) then failJob r .swap p .checkRefused s
    else if a.page.isNone ∧ a.shown = some x.batch then completeSwap i x s
    else moveEntry i { e with state := .staged } s

/-- R121: a refusal check has ended DONE and its job is still on the list. -/
def refusalAnswered (r : Fin 8) (kind : JobKind) (p : Fin 64) (a : StatusAnswer) (s : State) : State :=
  if a.state = .refreshing then retryLater r kind p s
  else if kind = .swap then swapChecked r p a s
  else failJob r kind p .checkRefused s

/-- The refused job, if it is still on the list. -/
def Rail.refused? (r : Rail) (kind : JobKind) (p : Fin 64) : Option Job :=
  (r.job? kind p).filter fun j => j.refused

/-- The kind of the refusal check that engine `k` carries. -/
def checkOf (s : State) (k : Fin 4) : Option (Fin 8 × JobKind × Fin 64) :=
  match (s.engine k).activity with
  | .session r (.refusalCheck kind) p _ => some (r, kind, p)
  | _ => none

/-- R121: a refusal check ends with an outcome of R119. Where the refused job has been withdrawn while the
check ran (R173, R96), its outcome counts by R120 and decides nothing (log entry 60). -/
def refusalEnded (k : Fin 4) (o : OutcomeClass) (a : Answer) (s : State) : State :=
  match checkOf s k with
  | none => s
  | some (r, kind, p) =>
    let idle := s.setActivity k .idle
    match (s.rail r).refused? kind p, o, a with
    | none, o, _ => countOutcome r p o idle
    | some _, .done, .status st => refusalAnswered r kind p st (countOutcome r p .done idle)
    | some _, .done, _ => s
    | some _, o, _ => failJob r kind p o idle

/-! #### PROVE -/

/-- R124: a proving session ends. -/
def provingEnded (k : Fin 4) (o : OutcomeClass) (read : List Byte) (s : State) : State :=
  match sessionOf s k (.job .prove) with
  | none => s
  | some (r, _, _) =>
    let s := s.setActivity k .idle
    match (s.rail r).proving with
    | none => s
    | some v => provingStep r v o read s

/-! #### STRETCH_TIMEOUT (R114, R119) -/

/-- R132: a session of a CENSUS or REVISIT job ends STRETCH_TIMEOUT. -/
def inquiryStretched (kind : JobKind) (r : Fin 8) (p : Fin 64) (s : State) : State :=
  match (s.rail r).running? kind p with
  | none => countOutcome r p .stretchTimeout s
  | some _ => failJob r kind p .stretchTimeout s

/-- R114, R120: the session of engine `k` ends STRETCH_TIMEOUT, by the rules of its job. -/
def stretched (k : Fin 4) (s : State) : State :=
  match (s.engine k).activity with
  | .session r kind p _ =>
    match kind with
    | .refusalCheck _ => refusalEnded k .stretchTimeout .nothing s
    | .job .prove => provingEnded k .stretchTimeout [] s
    | .job .swap => swapEnded k .stretchTimeout s
    | .job .preload => preloadEnded k .stretchTimeout s
    | .job .assign => assignEnded k .stretchTimeout s
    | .job kind => inquiryStretched kind r p (s.setActivity k .idle)
  | _ => s

/-- R114: the rail reset pulse follows the session that timed out, unless its port is disabled. -/
def beginPulse (k : Fin 4) (s : State) : State :=
  match (s.engine k).activity with
  | .session r _ _ _ =>
    let s' := stretched k s
    if (s'.rail r).enabled then s'.setActivity k (.pulse r (s.now + pulseTime)) else s'
  | _ => s

/-! ### Rail power (R127) -/

/-- R127: a job kept through a power loss. A CENSUS begins afresh, as the labels do, and a REVISIT
goes back to its first STATUS (log entry 35). -/
def Job.keep (j : Job) : Job :=
  if j.kind = .census then Job.make .census j.pos none else Job.make j.kind j.pos j.due

/-- R121, R124, R127: what a power loss leaves of an enabled rail; its jobs wait. -/
def Rail.losePower (r : Rail) : Rail :=
  { r with
    state := .unproven, proving := none, reproveAt := none, refusal := none
    work := (r.work.filter fun j => j.kind ≠ .prove).map Job.keep }

/-- R127: an entry of a rail whose power is lost. -/
def powerlessEntry (e : Entry) : Entry :=
  if e.state = .preloaded ∨ e.state = .preloading then { e with state := .staged } else e

/-- R127: the session in flight on a rail ends POWER_LOST. -/
def cutSession (r : Fin 8) (s : State) : State :=
  match (s.engine (engineOf r)).activity with
  | .pulse _ _ => s
  | a => if a.rail? = some r then s.setActivity (engineOf r) .idle else s

/-- R127: rail power reads absent. -/
def powerLost (r : Fin 8) (s : State) : State :=
  let s := onRail r (fun x => { x with power := false }) s
  if !(s.rail r).enabled then s
  else
    (servedSlots r s).foldl (fun s i => moveEntry i (powerlessEntry (s.entry i)) s)
      (onRail r Rail.losePower (cutSession r s))

/-- R127, R122: rail power reads present. -/
def powerReturned (r : Fin 8) (s : State) : State :=
  onRail r (fun x => { x with power := true }.proveIfUnproven) s

/-! ### Census of a cross rail (R170) -/

/-- R170: every CENSUS job of a cross rail has delivered: the entries it gave an article are marked. A
census whose last jobs are withdrawn closes so too (log entry 50). -/
def censusClosed (r : Fin 8) (s : State) : State :=
  let x := s.rail r
  if x.censusOpen ∧ x.censusDelivered then
    let s := x.gave.foldl (fun s i =>
      if (s.entry i).article.isSome then s.setEntry i { s.entry i with restage := true } else s) s
    onRail r (fun x => { x with censusOpen := false, gave := [] }) s
  else s

def crossRails : List (Fin 8) := [4, 5, 6, 7]

def censusSettle (s : State) : State :=
  crossRails.foldl (fun s r => censusClosed r s) s

/-! ### Due times -/

/-- R128: a job's due time passes. -/
def jobDue (r : Fin 8) (kind : JobKind) (p : Fin 64) (s : State) : State :=
  changeJob r kind p (fun j => if expired j.due s then { j with due := none } else j) s

/-- R125: the re-proving of a DEAD rail falls due. -/
def reproveDue (r : Fin 8) (s : State) : State :=
  let x := s.rail r
  if x.state = .dead ∧ expired x.reproveAt s then onRail r (fun x => { x with reproveAt := none }.prove) s else s

end Sys2Proof.Machine
end

