-- ==== Sys2Proof/Machine/Adoption.lean ====
section
/-! DEFINITION. The adoption unit: the holder side, the hold-line interlock and the home side
(file 08, R162 to R179), and the settling of the blocks after an event. -/

namespace Sys2Proof.Machine

open Sys2Proof.Config

/-! ### The holder side (R162 to R166) -/

/-- R163: the partner silence timer starts, where adoption is active. -/
def startSilence (s : State) : State :=
  { s with adopt := { s.adopt with
      silenceAt := if s.adoptionActive then some (s.now + silenceTime) else none } }

/-- R163, R165, R175: the holder side enters WATCHING. -/
def enterWatching (s : State) : State :=
  startSilence { s with adopt := { s.adopt with holder := .watching, guardAt := none, skip := [], heldFrom := none } }

/-- R165: a CLAIM waiting for a place gives up its wait; one in the queue stays and is sent. -/
def dropClaim (s : State) : State :=
  dropWaiter .claim (retag (fun f => f.tag = .claim) .orphan s)

/-- R162, R164: the holder side becomes CLAIMING and offers a CLAIM. -/
def beginClaim (s : State) : State :=
  offer .claim { s with adopt := { s.adopt with holder := .claiming, silenceAt := none } }

/-- R164: the CLAIM has been sent: the claim guard starts. -/
def claimSent (s : State) : State :=
  if s.adopt.holder = .claiming then
    { s with adopt := { s.adopt with guardAt := some (s.now + guardTime) } }
  else s

/-- R166: the cross ports whose hold lines read released are enabled, the others skipped. -/
def claimPorts (asserted : Vector Bool 4) (s : State) : State :=
  allEngines.foldl (fun s k =>
    if asserted[k] then { s with adopt := { s.adopt with skip := s.adopt.skip ++ [k] } }
    else enablePort (crossRail k) s) { s with adopt := { s.adopt with skip := [] } }

/-- R166: the claim guard has expired. -/
def guardExpired (asserted : Vector Bool 4) (s : State) : State :=
  if asserted.all id then enterWatching (offer .yield s)
  else
    claimPorts asserted { s with
      adopt := { s.adopt with
        holder := .holding, guardAt := none, heldFrom := some ⟨s.now, s.engines.map Engine.cross⟩ }
      alerts := { s.alerts with adoption := true } }

/-! ### Giving the rails back (R172 to R176) -/

/-- R172: a cross port is released: the port is disabled, the burst record emptied and the rail's
entries VACANT. -/
def releaseCross (r : Fin 8) (s : State) : State :=
  let s := disablePort r s
  let s := onRail r (fun x => { x with burst := [] }) s
  { s with dir := { s.dir with entries := Sparse.dropWhere (fun i => railOf i = r) s.dir.entries } }

/-- The cross rails whose ports are enabled. -/
def enabledCross (s : State) : List (Fin 8) :=
  crossRails.filter fun r => (s.rail r).enabled

/-- R173: what entering YIELDING leaves of a cross rail's list and of a preload being read for it. -/
def yieldRail (s : State) (r : Fin 8) : State :=
  let s := onRail r (Rail.withdraw fun j => yieldBars j.kind) s
  match (s.engine (engineOf r)).activity with
  | .fetching r' _ _ _ => if r' = r then s.setActivity (engineOf r) .idle else s
  | _ => s

/-- R165: a session on a cross rail that opened at the very moment of the guard's expiry is not in
flight yet for a frame that falls together with it: it is called back, and the pointer with it. -/
def recallSession (h : HoldStart) (s : State) (r : Fin 8) : State :=
  if inSession s r then s.setEngine (engineOf r) ⟨h.pointers[engineOf r], .idle, none⟩ else s

/-- R165: the sessions of the enabled cross rails are called back where the holding began at this very
moment (log entry 53). -/
def recallSessions (s : State) : State :=
  match s.adopt.heldFrom with
  | some h => if h.moment = s.now then (enabledCross s).foldl (recallSession h) s else s
  | none => s

/-- R173: the holder side enters YIELDING. -/
def beginYield (s : State) : State :=
  let s := recallSessions s
  (enabledCross s).foldl yieldRail { s with adopt := { s.adopt with holder := .yielding } }

/-- R163, R165, R173: a frame from the partner has been accepted. -/
def partnerHeard (src : Byte) (s : State) : State :=
  if s.adoptionActive ∧ src = s.straps.ptn then
    match s.adopt.holder with
    | .watching => startSilence s
    | .claiming => enterWatching (dropClaim s)
    | .holding => beginYield s
    | .yielding => s
  else s

/-- R174: in YIELDING a cross rail without power, or with a proving due, is released; a session in
flight on it first runs to its end (log entry 15). -/
def mustRelease (s : State) (r : Fin 8) : Bool :=
  !(s.rail r).power || ((s.rail r).proveDue && !inSession s r)

/-- R175: no adopted entry of an enabled cross rail is SWAPPING, no session runs on one. -/
def yieldCondition (s : State) : Bool :=
  !adoptedSwapping s && !crossRails.any fun r => (s.rail r).enabled && inSession s r

/-- R175, R176: the last cross port is let go: a YIELD is offered, the holder side is WATCHING. -/
def finishYield (s : State) : State :=
  enterWatching (offer .yield s)

/-- R174, R175: forced releases in YIELDING, and the yield condition. -/
def yieldSettle (s : State) : State :=
  if s.adopt.holder = .yielding then
    let s := ((enabledCross s).filter (mustRelease s)).foldl (fun s r => releaseCross r s) s
    if yieldCondition s then finishYield ((enabledCross s).foldl (fun s r => releaseCross r s) s)
    else s
  else s

/-- R176: the hold line of an enabled cross port reads asserted. -/
def preempted (k : Fin 4) (s : State) : State :=
  let r := crossRail k
  if (s.rail r).enabled then
    let s := releaseCross r s
    if enabledCross s = [] then finishYield s else s
  else s

/-! ### The home side (R177 to R179) -/

/-- R179: all four home rails enter TAKING and their hold lines are asserted, which they then read
back (log entry 9). -/
def enterTaking (s : State) : State :=
  { s with adopt := { s.adopt with
      home := Vector.replicate 4 (.taking (some (s.now + takingTime))), waitUntil := none } }

/-- R178: the home rails are in WAIT_RELEASE, which they enter and leave together. -/
def waitingRelease (s : State) : Bool :=
  s.adopt.waitUntil.isSome

/-- R177: what the home rails enter with RUN. -/
def decideHome (s : State) : State :=
  match s.adopt.trigger with
  | some _ =>
    { s with adopt := { s.adopt with
        home := Vector.replicate 4 .waitRelease, waitUntil := some (s.now + releaseTime) } }
  | none => enterTaking s

/-- R177: a holder trigger from station `src`, noted during LISTEN. -/
def noteTrigger (src : Byte) (s : State) : State :=
  if s.phase = .listen then { s with adopt := { s.adopt with trigger := some src } } else s

/-- The station is named by a CLAIM, a YIELD or a held partner (R177); station 0 never is. -/
def names (n : Byte) (s : State) : Bool :=
  n = s.station && s.station ≠ 0

/-- R177, R178: a YIELD naming this station. -/
def yieldHeard (src : Byte) (s : State) : State :=
  if waitingRelease s then enterTaking s
  else if s.phase = .listen ∧ s.adopt.trigger = some src then
    { s with adopt := { s.adopt with trigger := none } }
  else s

def setHome (k : Fin 4) (h : HomeSide) (s : State) : State :=
  { s with adopt := { s.adopt with home := s.adopt.home.set k h } }

/-- R179: the line of a TAKING rail has read back asserted for 5 ms. -/
def homeTaken (k : Fin 4) (s : State) : State :=
  match s.adopt.home[k] with
  | .taking d => if expired d s then enablePort (homeRail k) (setHome k .own s) else s
  | _ => s

/-- R179: a hold line this station asserts reads back released. -/
def readbackLost (k : Fin 4) (s : State) : State :=
  match s.adopt.home[k] with
  | .taking _ => setHome k (.taking none) s
  | .own => setHome k (.taking none) (disablePort (homeRail k) s)
  | _ => s

/-- R179: it reads asserted again. -/
def readbackFound (k : Fin 4) (s : State) : State :=
  match s.adopt.home[k] with
  | .taking none => setHome k (.taking (some (s.now + takingTime))) s
  | _ => s

/-- R178: the holder's row shows 30 s without an accepted frame. -/
def holderSilent (s : State) : Bool :=
  match s.adopt.trigger with
  | none => false
  | some h =>
    match Sparse.get none s.trunk.sources h.toNat with
    | some t => t + silenceTime ≤ s.now
    | none => false

/-! ### The digest timer (R62) and the settling of an event -/

/-- R62: the digest timer starts with a draw of the present condition. -/
def startDigest (s : State) : State :=
  let lo := if s.fast then 2000000 else 10000000
  { s.drew with trunk := { s.trunk with digestAt := some (s.now + drawn lo (lo + 500000) s) } }

/-- R62: a station that was slow in `before` and is now fast restarts a timer with more than 2.5 s left. -/
def digestSettle (before s : State) : State :=
  match s.trunk.digestAt with
  | some d => if !before.fast ∧ s.fast ∧ s.now + 2500000 < d then startDigest s else s
  | none => s

/-- What the blocks do at once after an event, in this order (log entry 32): the trailing-gap timer
stops (R71), a cross census closes (R170), a walk pass starts (R98), YIELDING ends (R175), idle rail
engines choose (R131), the flash engine goes on (R33), the head frame contends (R57), and the digest
timer follows the fast condition it had `before` (R62). -/
def settle (before s : State) : State :=
  digestSettle before
    (contend (flashSettle (railsSettle (yieldSettle (walkSettle (censusSettle (trailingSettle s)))))))

/-- An event of a powered station at a moment, with what the blocks then do. -/
def eventAt (t : Micros) (f : State → State) (s : State) : State :=
  let s := s.at t
  if s.power = .on then settle s (f s) else s

end Sys2Proof.Machine
end

