-- ==== Sys2Proof/Machine/AdoptionCommands.lean ====
section
/-! DEFINITION. The commands of the adoption unit: its timers and the hold lines (file 08, R163 to
R179). -/

namespace Sys2Proof.Machine

open Sys2Proof.Config

/-- PARTNER_SILENCE_TIMER_EXPIRY (R163, R164): 30 s without a frame from the partner. -/
def execPartnerSilenceTimerExpiry (t : Micros) (s : State) : Host.Outcome State Fault Refusal :=
  let s := s.at t
  .next (
    if s.power = .on ∧ s.adopt.holder = .watching ∧ expired s.adopt.silenceAt s then contend (beginClaim s)
    else s)

/-- CLAIM_GUARD_EXPIRY (R166): the hold lines of the cross rails are read. -/
def execClaimGuardExpiry (t : Micros) (asserted : Vector Bool 4) (s : State) :
    Host.Outcome State Fault Refusal :=
  let s := s.at t
  .next (
    if s.power = .on ∧ s.adopt.holder = .claiming ∧ expired s.adopt.guardAt s then
      settle s (guardExpired asserted s)
    else s)

/-- HOLD_LINE_ASSERTED (R176): the hold line of a cross rail reads asserted. -/
def execHoldLineAsserted (t : Micros) (k : Fin 4) (s : State) : Host.Outcome State Fault Refusal :=
  let s := s.at t
  .next (if s.power = .on then settle s (preempted k s) else s)

/-- WAIT_RELEASE_TIMEOUT (R178): 20 s of WAIT_RELEASE have passed. -/
def execWaitReleaseTimeout (t : Micros) (s : State) : Host.Outcome State Fault Refusal :=
  let s := s.at t
  .next (if s.power = .on ∧ waitingRelease s ∧ expired s.adopt.waitUntil s then enterTaking s else s)

/-- HOLDER_SILENCE (R178): nothing has been heard of the holder for 30 s. -/
def execHolderSilence (t : Micros) (s : State) : Host.Outcome State Fault Refusal :=
  let s := s.at t
  .next (if s.power = .on ∧ waitingRelease s ∧ holderSilent s then enterTaking s else s)

/-- TAKING_COMPLETE (R179): a home hold line has read back asserted for 5 ms. -/
def execTakingComplete (t : Micros) (k : Fin 4) (s : State) : Host.Outcome State Fault Refusal :=
  let s := s.at t
  .next (if s.power = .on then settle s (homeTaken k s) else s)

/-- HOLD_LINE_READBACK_RELEASED (R179). -/
def execHoldLineReadbackReleased (t : Micros) (k : Fin 4) (s : State) : Host.Outcome State Fault Refusal :=
  let s := s.at t
  .next (if s.power = .on then settle s (readbackLost k s) else s)

/-- HOLD_LINE_READBACK_ASSERTED (R179). -/
def execHoldLineReadbackAsserted (t : Micros) (k : Fin 4) (s : State) : Host.Outcome State Fault Refusal :=
  let s := s.at t
  .next (if s.power = .on then readbackFound k s else s)

end Sys2Proof.Machine
end

