-- ==== Sys2Proof/Machine/Formats.lean ====
section
/-! DEFINITION. Trunk frames on the wire and the receive checks (file 03: R47, R49, R50, R65). -/

namespace Sys2Proof.Machine

/-! ### The CRC (R47) -/

/-- One bit time of the CRC generator 0x1021, most significant bit first. -/
def crcShift (c : BitVec 16) : BitVec 16 :=
  if c.getLsbD 15 then (c <<< 1) ^^^ 0x1021#16 else c <<< 1

/-- One byte of the CRC. -/
def crcByte (c : BitVec 16) (b : Byte) : BitVec 16 :=
  Nat.iterate crcShift 8 (c ^^^ (BitVec.ofNat 16 (b.toNat * 256)))

/-- R47: the CRC of the kind, source, length and body bytes, from 0xFFFF, not inverted. -/
def crc (bs : List Byte) : BitVec 16 :=
  bs.foldl crcByte 0xFFFF#16

/-! ### Encoding (R65) -/

def frameKindCode : Frame → Byte
  | .opening .. => 0x01 | .price .. => 0x02 | .digest .. => 0x03 | .want .. => 0x04
  | .stop .. => 0x05 | .flip .. => 0x11 | .claim .. => 0x12 | .yield .. => 0x13

def nextPhaseCode : NextPhase → Nat
  | .none => 0 | .gathering => 1 | .complete => 2 | .holding => 3

def livePhaseCode : LivePhase → Nat
  | .none => 0 | .swapping => 1 | .settled => 2

/-- An optional batch as its two bytes, 0 where absent (R65). -/
def batchBytes (b : Option (BitVec 16)) : List Byte :=
  be2 ((b.map BitVec.toNat).getD 0)

/-- R65: the DIGEST body. -/
def digestBody (d : Digest) : List Byte :=
  [flagByte [d.live.isSome, d.next.isSome, d.lowestMissing.isSome, d.isolated, d.duplicate]]
    ++ batchBytes d.live ++ be1 (livePhaseCode d.livePhase) ++ be2 d.liveCount.toNat
    ++ be2 d.liveHeld.toNat ++ batchBytes d.next ++ be2 d.nextCount.toNat ++ be2 d.nextHeld.toNat
    ++ batchBytes d.lowestMissing ++ be1 (nextPhaseCode d.nextPhase) ++ be2 d.staged.toNat
    ++ be2 d.preloaded.toNat ++ [d.heldPartner]

/-- R65: the body of a frame. -/
def frameBody : Frame → List Byte
  | .opening b t r => be2 b.toNat ++ be2 t.toNat ++ [flagByte [r]]
  | .price b r rs => be2 b.toNat ++ be1 rs.length ++ [flagByte [r]] ++ rs.flatten
  | .digest d => digestBody d
  | .want b rs => be2 b.toNat ++ be1 rs.length ++ rs.flatMap fun p => be2 p.1.toNat ++ be2 p.2.toNat
  | .stop b => be2 b.toNat
  | .flip b e => be2 b.toNat ++ [flagByte [e]]
  | .claim p => [p]
  | .yield p => [p]

/-- R47: the kind, source, length and body bytes. -/
def framePayload (src : Byte) (f : Frame) : List Byte :=
  [frameKindCode f, src] ++ be1 (frameBody f).length ++ frameBody f

/-- R47: a whole frame on the line, delimiter first and CRC last. -/
def frameWire (src : Byte) (f : Frame) : List Byte :=
  0xD5#8 :: framePayload src f ++ be2 (crc (framePayload src f)).toNat

/-! ### Decoding and the receive checks (R50) -/

/-- A two-byte field as a 16-bit number. -/
def word16 (bs : List Byte) (off : Nat) : BitVec 16 :=
  BitVec.ofNat 16 (field bs off 2)

/-- `n` records of 32 bytes. -/
def recordsOf : Nat → List Byte → List Record
  | 0, _ => []
  | n + 1, bs => bs.take 32 :: recordsOf n (bs.drop 32)

/-- `n` ranges of four bytes. -/
def rangesOf : Nat → List Byte → List (BitVec 16 × BitVec 16)
  | 0, _ => []
  | n + 1, bs => (word16 bs 0, word16 bs 2) :: rangesOf n (bs.drop 4)

def nextPhaseOfCode : Nat → Option NextPhase
  | 0 => some .none | 1 => some .gathering | 2 => some .complete | 3 => some .holding
  | _ => none

def livePhaseOfCode : Nat → Option LivePhase
  | 0 => some .none | 1 => some .swapping | 2 => some .settled
  | _ => none

/-- The DIGEST of a 22-byte body; a phase code that names no phase makes none. -/
def digestOf (bs : List Byte) : Option Digest :=
  let flags := byteAt bs 0
  match livePhaseOfCode (field bs 3 1), nextPhaseOfCode (field bs 16 1) with
  | some lp, some np => some
    { live := if flagBit flags 0 then some (word16 bs 1) else none
      livePhase := lp, liveCount := word16 bs 4, liveHeld := word16 bs 6
      next := if flagBit flags 1 then some (word16 bs 8) else none
      nextCount := word16 bs 10, nextHeld := word16 bs 12
      lowestMissing := if flagBit flags 2 then some (word16 bs 14) else none
      nextPhase := np, staged := word16 bs 17, preloaded := word16 bs 19
      heldPartner := byteAt bs 21, isolated := flagBit flags 3, duplicate := flagBit flags 4 }
  | _, _ => none

/-- R50: the frame of a kind code and body whose length fits; none where they name no frame. -/
def frameOfBody (kind : Byte) (body : List Byte) : Option Frame :=
  let l := body.length
  match kind.toNat with
  | 0x01 => if l = 5 then some (.opening (word16 body 0) (word16 body 2) (flagBit (byteAt body 4) 0)) else none
  | 0x02 =>
    let n := field body 2 1
    if l = 4 + 32 * n then
      some (.price (word16 body 0) (flagBit (byteAt body 3) 0) (recordsOf n (body.drop 4)))
    else none
  | 0x03 => if l = 22 then (digestOf body).map .digest else none
  | 0x04 =>
    let r := field body 2 1
    if l = 3 + 4 * r then some (.want (word16 body 0) (rangesOf r (body.drop 3))) else none
  | 0x05 => if l = 2 then some (.stop (word16 body 0)) else none
  | 0x11 => if l = 3 then some (.flip (word16 body 0) (flagBit (byteAt body 2) 0)) else none
  | 0x12 => if l = 1 then some (.claim (byteAt body 0)) else none
  | 0x13 => if l = 1 then some (.yield (byteAt body 0)) else none
  | _ => none

/-- The numbers a range covers, as a count. -/
def rangeSize (p : BitVec 16 × BitVec 16) : Nat :=
  p.2.toNat + 1 - p.1.toNat

/-- R50: ranges ascend without overlapping, each from its first to its last number, all above `low`. -/
def rangesAscend : Nat → List (BitVec 16 × BitVec 16) → Bool
  | _, [] => true
  | low, p :: ps => low ≤ p.1.toNat && p.1.toNat ≤ p.2.toNat && p.2.toNat ≤ 32767
      && rangesAscend (p.2.toNat + 1) ps

/-- R50, R49: the ranges of a WANT. -/
def rangesFit (ps : List (BitVec 16 × BitVec 16)) : Bool :=
  1 ≤ ps.length && ps.length ≤ 4 && rangesAscend 0 ps && (ps.map rangeSize).sum ≤ 63

/-- A station number a frame may name, 1..254 (R47, R50). -/
def stationFits (n : Byte) : Bool :=
  n ≠ 0 && n ≠ 255

/-- R50: the body field checks of a frame. -/
def frameFits : Frame → Bool
  | .opening _ t _ => 1 ≤ t.toNat && t.toNat ≤ 32767
  | .price _ _ rs => 1 ≤ rs.length && rs.length ≤ 7 && rs.all (·.length = 32)
  | .digest d => d.heldPartner ≠ 255
  | .want _ rs => rangesFit rs
  | .stop _ => true
  | .flip _ _ => true
  | .claim p => stationFits p
  | .yield p => stationFits p

/-- R50: what becomes of a frame at the receiver. -/
inductive Verdict where
  /-- The first byte is not the delimiter; no count. -/
  | notDelimited
  /-- An invalid level was seen; no count. -/
  | broken
  /-- The frame ended before its length and CRC; counted. -/
  | truncated
  /-- The CRC does not match; counted. -/
  | badCrc
  /-- The kind, source, length or a body field is out of range; counted. -/
  | malformed
  | accepted (src : Byte) (f : Frame)
deriving DecidableEq, Repr

/-- R50: the checks in the order of the table, on the bytes received from the delimiter on. A frame that
ends before its first byte is whole is truncated (log entry 44). -/
def judgeReception (invalid : Bool) (bs : List Byte) : Verdict :=
  let l := field bs 3 1
  let payload := slice bs 1 (3 + l)
  if bs.take 1 ≠ [] ∧ bs.take 1 ≠ [0xD5#8] then .notDelimited
  else if invalid then .broken
  else if bs.length < 4 ∨ bs.length < 6 + l then .truncated
  else if word16 bs (4 + l) ≠ crc payload then .badCrc
  else if !stationFits (byteAt bs 2) then .malformed
  else
    match frameOfBody (byteAt bs 1) (slice bs 4 l) with
    | none => .malformed
    | some f => if frameFits f then .accepted (byteAt bs 2) f else .malformed

/-- R50: the discards that raise the CRC errors counter. -/
def Verdict.counted : Verdict → Bool
  | .truncated => true
  | .badCrc => true
  | .malformed => true
  | _ => false

end Sys2Proof.Machine
end

