-- ==== Sys2Proof/Machine/Operands.lean ====
section
/-! DEFINITION. Feed transactions and result bodies: command codes, lengths, fields of command
bodies, and the layouts of the status record, the entry body and the counters (R65, R182, R188, R207). -/

namespace Sys2Proof.Machine

/-! ### Command codes and lengths (R65, R182) -/

/-- R65: the feed commands. -/
inductive FeedCommand where
  | openBatch | putRecords | callFlip | stopBatch | readStatus | readEntry | readCounters
  | writeEnable | writeDisable | assignPosition | clearPosition | setLock | clearAlert | restart
deriving DecidableEq, Repr

/-- R65: the code of a command. -/
def FeedCommand.code : FeedCommand → Byte
  | .openBatch => 0x10 | .putRecords => 0x11 | .callFlip => 0x12 | .stopBatch => 0x13
  | .readStatus => 0x20 | .readEntry => 0x21 | .readCounters => 0x22
  | .writeEnable => 0x30 | .writeDisable => 0x31 | .assignPosition => 0x32 | .clearPosition => 0x33
  | .setLock => 0x34 | .clearAlert => 0x35 | .restart => 0x3F

def allFeedCommands : List FeedCommand :=
  [.openBatch, .putRecords, .callFlip, .stopBatch, .readStatus, .readEntry, .readCounters, .writeEnable,
    .writeDisable, .assignPosition, .clearPosition, .setLock, .clearAlert, .restart]

/-- R65: the command of a code. -/
def feedCommandOf (code : Byte) : Option FeedCommand :=
  allFeedCommands.find? fun c => c.code = code

/-- R65: the code of a FETCH. -/
abbrev fetchCode : Byte := 0x40

/-- R182: the body length L that fits a command, whose body is given. -/
def lengthFits (c : FeedCommand) (l : Nat) (body : List Byte) : Bool :=
  match c with
  | .openBatch => l = 4
  | .putRecords => 3 ≤ l && l = 3 + 32 * (byteAt body 2).toNat
  | .callFlip => l = 2
  | .stopBatch => l = 2
  | .readEntry => l = 2
  | .clearPosition => l = 2
  | .readCounters => l = 1
  | .setLock => l = 1
  | .clearAlert => l = 1
  | .assignPosition => l = 9
  | .readStatus => l = 0
  | .writeEnable => l = 0
  | .writeDisable => l = 0
  | .restart => l = 0

/-- R182: the judgement of a command transaction of `n` bytes, of which `bytes` are kept. -/
def judgeTransaction (n : Nat) (bytes : List Byte) : Judgement :=
  match feedCommandOf (byteAt bytes 0) with
  | none => .unknownCommand
  | some c =>
    let l := (byteAt bytes 1).toNat
    if n < 2 ∨ l ≠ n - 2 ∨ !lengthFits c l (bytes.drop 2) then .badLength else .wellFormed

/-! ### Fields of command bodies -/

/-- A two-byte batch field. -/
def batchAt (body : List Byte) (off : Nat) : Batch := word16 body off

/-- R65: the lock mode of a SET_LOCK. -/
def lockModeOf : Nat → Option LockMode
  | 0 => some .open | 1 => some .pin | 2 => some .session | 3 => some .permanent
  | _ => none

/-- R103: the slot of a home rail and position in range. -/
def homeSlot (rail pos : Nat) : Option Nat :=
  if rail < 4 ∧ pos < 64 then some (rail * 64 + pos) else none

/-! ### The entry body (R196) -/

def entryStateCode : EntryState → Nat
  | .vacant => 0 | .current => 1 | .staged => 2 | .preloading => 3 | .preloaded => 4
  | .swapping => 5 | .faulted => 6 | .absent => 7

/-- R196: the whole milliseconds since the refresh start (log entry 51), holding at 65,535. -/
def refreshMillis (now : Micros) (e : Entry) : Nat :=
  match e.refreshStart with
  | some t => min 65535 ((now - t) / 1000)
  | none => 0

/-- R65, R196: the 29-byte body of READ_ENTRY; an absent field is sent as 0. -/
def entryBody (now : Micros) (slot : Nat) (e : Entry) : List Byte :=
  be2 slot ++ be1 (entryStateCode e.state)
    ++ [flagByte [e.article.isSome, e.serial.isSome, e.shown.isSome, e.pending.isSome,
        e.deferred.isSome, e.refreshStart.isSome]]
    ++ (match e.article with
      | some a => articleBytes a
      | none => List.replicate 7 0)
    ++ be4 ((e.serial.map BitVec.toNat).getD 0)
    ++ batchBytes e.shown
    ++ batchBytes (e.pending.map PendingRecord.batch)
    ++ be2 ((e.pending.map PendingRecord.seq).getD 0)
    ++ batchBytes (e.pending.bind PendingRecord.check)
    ++ be2 (e.deferred.getD 0) ++ be1 e.attempts
    ++ [flagByte [e.missed, e.mismatch, e.markdownVoid, e.multiVoid, e.unitOver]]
    ++ be2 (refreshMillis now e)

/-! ### The counters (R197, R208) -/

/-- R208: the counters in the order of the list. -/
def Counters.list (c : Counters) : List Nat :=
  [c.framesReceived, c.crcErrors, c.collisions, c.framesDropped, c.wantsSent, c.wantsSuppressed,
    c.givesSent, c.answersTrimmed, c.holdDrops, c.preloadsDone, c.swapsDone, c.labelFaults, c.callsIgnored]

/-- R197: the 26-byte body of READ_COUNTERS. -/
def countersBody (c : Counters) : List Byte :=
  c.list.flatMap be2

/-! ### The alert byte (R65, R199, R210) -/

/-- R65: the alert byte. -/
def alertByte (a : Alerts) : Byte :=
  flagByte [a.railDead, a.entryFault, a.adoption, a.isolated, a.duplicate, a.holdOverflow, a.missed,
    a.mismatch]

/-- R199, R211: the causes whose bits are set are cleared; one whose condition holds latches again. -/
def clearAlerts (causes : Byte) (cond : Alerts) (a : Alerts) : Alerts :=
  { railDead := (a.railDead && !flagBit causes 0) || (flagBit causes 0 && cond.railDead)
    entryFault := a.entryFault && !flagBit causes 1
    adoption := (a.adoption && !flagBit causes 2) || (flagBit causes 2 && cond.adoption)
    isolated := (a.isolated && !flagBit causes 3) || (flagBit causes 3 && cond.isolated)
    duplicate := a.duplicate && !flagBit causes 4
    holdOverflow := a.holdOverflow && !flagBit causes 5
    missed := a.missed && !flagBit causes 6
    mismatch := a.mismatch && !flagBit causes 7 }

/-! ### The status record (R207) -/

def phaseCode : Phase → Nat
  | .scan => 0 | .listen => 1 | .run => 2

def lockModeCode : LockMode → Nat
  | .open => 0 | .pin => 1 | .session => 2 | .permanent => 3

def roleCode : Role → Nat
  | .none => 0 | .next => 1 | .live => 2 | .retired => 3

def headerCode : Option HeaderState → Nat
  | none => 0 | some .waiting => 1 | some .written => 2

def railStateCode : RailState → Nat
  | .unproven => 0 | .proven => 1 | .degraded => 2 | .dead => 3

def holderCode : HolderState → Nat
  | .watching => 0 | .claiming => 1 | .holding => 2 | .yielding => 3

def homeCode : HomeSide → Nat
  | .undecided => 0 | .waitRelease => 1 | .taking _ => 2 | .own => 3

/-- R65, R207: the 14 bytes of a bank. -/
def bankBytes (k : Bank) : List Byte :=
  be1 (roleCode k.role) ++ batchBytes k.batch ++ be2 k.count ++ be2 k.held ++ be2 k.eraseList.length
    ++ be1 (headerCode k.header) ++ be2 k.duplicates ++ be2 k.beyond

/-- R65, R201: the strap bytes, as sampled. -/
def strapBytes (x : Straps) : List Byte :=
  [x.stn, x.ptn] ++ be1 ((if x.xw then 4 else 0) + x.kb.toNat)

/-- R207: the entry states in the order of the record. -/
def allEntryStates : List EntryState :=
  [.vacant, .current, .staged, .preloading, .preloaded, .swapping, .faulted, .absent]

/-- R207: bytes 4 to 11. -/
def batchStatus (s : State) : List Byte :=
  [flagByte [s.liveBatch.isSome, s.nextBatch.isSome]] ++ batchBytes s.liveBatch ++ batchBytes s.nextBatch
    ++ be1 (nextPhaseCode s.nextPhase) ++ be1 (livePhaseCode s.livePhase) ++ be1 (lockModeCode s.lockMode)

/-- R207: bytes 40 to 52. -/
def railStatus (s : State) : List Byte :=
  (s.rails.toList.flatMap fun r => be1 (railStateCode r.state)) ++ be1 (holderCode s.adopt.holder)
    ++ s.adopt.home.toList.flatMap fun h => be1 (homeCode h)

/-- R65, R207: the 72-byte status record. -/
def statusRecord (s : State) : List Byte :=
  strapBytes s.straps ++ be1 (phaseCode s.phase) ++ batchStatus s ++ bankBytes s.bankA
    ++ bankBytes s.bankB ++ railStatus s ++ (allEntryStates.flatMap fun x => be2 (s.entriesIn x))
    ++ [alertByte s.alerts, flagByte [s.feed.overrun, s.dir.wel], 0]

end Sys2Proof.Machine
end

