-- ==== Sys2Proof/Machine/FeedCommands.lean ====
section
/-! DEFINITION. The feed port: transactions, the command buffer, results, and the execution of the
head command (file 09, R180 to R199; files 02, 05, 07 and 10 for what the commands do). -/

namespace Sys2Proof.Machine

open Sys2Proof.Config

/-! ### The head and its waits (R184, R185) -/

/-- R185: a batch command: it waits for a transmit place. -/
def isBatchCommand : FeedCommand → Bool
  | .openBatch => true | .putRecords => true | .callFlip => true | .stopBatch => true
  | _ => false

/-- R184: a command that waits for RUN when well formed. -/
def needsRun : FeedCommand → Bool
  | .assignPosition => true | .clearPosition => true | .setLock => true
  | c => isBatchCommand c

/-- R184, R185: the head is a well-formed batch command, ready but for a transmit place. -/
def headWantsPlace (s : State) : Bool :=
  s.phase = .run && !s.listenOnly && s.feed.results.length < 4 &&
  match s.feed.buffer with
  | x :: _ =>
    x.judgement = .wellFormed && ((feedCommandOf (byteAt x.bytes 0)).map isBatchCommand = some true)
  | [] => false

/-- R185: the head begins its wait for a place, and has it at once if one is free and nobody waits. -/
def feedSettle (s : State) : State :=
  if headWantsPlace s ∧ !s.trunk.feedGrant ∧ Producer.feed ∉ s.trunk.waiters then offer .feed s else s

/-- R183: the head leaves the buffer. -/
def popHead (s : State) : State :=
  { s with feed := { s.feed with buffer := s.feed.buffer.tail } }

/-- R188: a result joins the queue. -/
def placeResult (c : FeedCommand) (code : ResultCode) (body : List Byte) (s : State) : State :=
  { s with feed := { s.feed with results := s.feed.results ++ [⟨c.code, code, body⟩] } }

/-- R103, R198: the write-enable latch is clear after a directory write. -/
def clearLatch (s : State) : State :=
  { s with dir := { s.dir with wel := false } }

def isDirectoryWrite : FeedCommand → Bool
  | .assignPosition => true | .clearPosition => true | .setLock => true
  | _ => false

/-- R182, R198: a transaction judged BAD_LENGTH executes. -/
def badLength (c : FeedCommand) (s : State) : State :=
  popHead (placeResult c .badLength [] (if isDirectoryWrite c then clearLatch s else s))

/-- R184, R185: a well-formed head may execute: it is in RUN where it must be and has its place. -/
def mayRun (c : FeedCommand) (s : State) : Bool :=
  (!needsRun c || s.phase = .run) && (!isBatchCommand c || s.listenOnly || s.trunk.feedGrant)

/-- R184: the head is a transaction of command `c`. -/
def headOf (c : FeedCommand) (s : State) : Option Transaction :=
  match s.feed.buffer with
  | x :: _ => if feedCommandOf (byteAt x.bytes 0) = some c ∧ x.judgement ≠ .unknownCommand then some x else none
  | [] => none

/-- R183 to R185: the head, a transaction of command `c`, executes as `run` lays down for a well-formed
body; one whose waits have not ended stays. -/
def executeHead (c : FeedCommand) (run : List Byte → State → State) (s : State) : State :=
  if s.power ≠ .on ∨ 4 ≤ s.feed.results.length then s
  else
    match headOf c s with
    | none => s
    | some x =>
      if x.judgement = .badLength then feedSettle (badLength c s)
      else if mayRun c s then feedSettle (popHead (run (x.bytes.drop 2) s))
      else s

/-- R185: the granted place is taken, or given up. -/
def releaseGrant (s : State) : State :=
  { s with trunk := { s.trunk with feedGrant := false } }

/-- R185: a frame takes the granted place. -/
def sendGranted (f : Frame) (s : State) : State :=
  enqueueFrame .feed f (releaseGrant s)

/-! ### Batch commands (R190 to R194) -/

/-- R190: the OPEN_BATCH of batch `b` with record count `n`. -/
def runOpenBatch (b : Batch) (n : Nat) (s : State) : State :=
  if s.listenOnly ∨ n < 1 ∨ maxCount < n then placeResult .openBatch .badRange [] (releaseGrant s)
  else if s.nextBatch = some b then
    let s := mergeCount n s
    let t := ((s.bankOf b).map fun i => (s.bank i).count).getD n
    placeResult .openBatch .done [] (sendGranted (.opening b (BitVec.ofNat 16 t) false) s)
  else if s.newerThanBoth b then
    placeResult .openBatch .done [] (sendGranted (.opening b (BitVec.ofNat 16 n) false) (openNew b n s))
  else placeResult .openBatch .oldBatch [] (releaseGrant s)

/-- R65: the fault codes of a PUT_RECORDS result. -/
def validityCode : ValidityFault → Nat
  | .recordCheck => 1 | .kind => 2 | .presence => 3 | .range => 4 | .pair => 5

/-- R191: the fault code of a record of a PUT_RECORDS for `b` with the next bank's `t`, 0 where it is
accepted. -/
def recordFault (b : Batch) (t : Nat) (r : Record) : Nat :=
  match judgeRecord r with
  | .error f => validityCode f
  | .ok x => if x.batch ≠ b then 6 else if t < x.seq then 4 else 0

/-- R192: the index from 1 and fault of the first rejected record, 0 and 0 where none was. -/
def firstRejected : Nat → List Nat → Nat × Nat
  | _, [] => (0, 0)
  | i, 0 :: fs => firstRejected (i + 1) fs
  | i, f :: _ => (i, f)

/-- R192: the result body of a PUT_RECORDS. -/
def putBody (accepted : Nat) (rejected : Nat × Nat) : List Byte :=
  be1 accepted ++ be1 rejected.1 ++ be1 rejected.2

/-- R191, R192: the PUT_RECORDS of batch `b` with records `rs`. -/
def runPutRecords (b : Batch) (rs : List Record) (s : State) : State :=
  if s.listenOnly then placeResult .putRecords .badRange (putBody 0 (0, 0)) (releaseGrant s)
  else if s.nextBatch ≠ some b then placeResult .putRecords .noBatch (putBody 0 (0, 0)) (releaseGrant s)
  else
    let t := ((s.bankOf b).map fun i => (s.bank i).count).getD 0
    let accepted := rs.filter fun r => recordFault b t r = 0
    let rejected := firstRejected 1 (rs.map (recordFault b t))
    if accepted = [] then placeResult .putRecords .badRange (putBody 0 rejected) (releaseGrant s)
    else
      placeResult .putRecords .done (putBody accepted.length rejected)
        (sendGranted (.price b false accepted) (logRecords b accepted s))

/-- R193: the CALL_FLIP of batch `b`. -/
def runCallFlip (b : Batch) (s : State) : State :=
  if s.listenOnly then placeResult .callFlip .badRange [] (releaseGrant s)
  else if s.nextBatch ≠ some b then placeResult .callFlip .notNext [] (releaseGrant s)
  else placeResult .callFlip .done [] (beginCall b (releaseGrant s))

/-- R194: the STOP_BATCH of batch `b`. -/
def runStopBatch (b : Batch) (s : State) : State :=
  if s.listenOnly then placeResult .stopBatch .badRange [] (releaseGrant s)
  else if s.nextBatch ≠ some b then placeResult .stopBatch .notNext [] (releaseGrant s)
  else placeResult .stopBatch .done [] (sendGranted (.stop b) (dropNext b s))

/-! ### Reads (R195 to R197) -/

/-- R195: READ_STATUS; the overrun flag is cleared once copied. -/
def runReadStatus (s : State) : State :=
  let s' := placeResult .readStatus .done (statusRecord s) s
  { s' with feed := { s'.feed with overrun := false } }

/-- R196: READ_ENTRY of a slot. -/
def runReadEntry (slot : Nat) (s : State) : State :=
  if 511 < slot then placeResult .readEntry .badRange [] s
  else placeResult .readEntry .done (entryBody s.now slot (s.entry slot)) s

/-- R197: READ_COUNTERS with its clear byte. -/
def runReadCounters (clear : Byte) (s : State) : State :=
  let s' := placeResult .readCounters .done (countersBody s.counters) s
  if flagBit clear 0 then { s' with counters := Counters.zero } else s'

/-! ### Commissioning and alerts (R103 to R108, R198, R199) -/

/-- R103, R198: a directory write goes through its checks in order; `act` is its effect where its
fields are in range. -/
def directoryWrite (c : FeedCommand) (lockN : Bool) (act : Option (State → State)) (s : State) : State :=
  let enabled := s.dir.wel
  let s := clearLatch s
  if !enabled then placeResult c .refusedWel [] s
  else if !lockAllows s.lockMode lockN then placeResult c .refusedLock [] s
  else
    match act with
    | none => placeResult c .badRange [] s
    | some f => placeResult c .done [] (f s)

/-- R107: the fields of an ASSIGN_POSITION in range. -/
def assignAct (body : List Byte) : Option (State → State) :=
  match homeSlot (byteAt body 0).toNat (byteAt body 1).toNat, articleOf (slice body 2 7) with
  | some i, some a => some (assignArticle i a)
  | _, _ => none

/-- R108: the fields of a CLEAR_POSITION in range. -/
def clearAct (body : List Byte) : Option (State → State) :=
  (homeSlot (byteAt body 0).toNat (byteAt body 1).toNat).map clearArticle

/-- R106: the fields of a SET_LOCK in range. -/
def lockAct (body : List Byte) : Option (State → State) :=
  (lockModeOf (byteAt body 0).toNat).map applyLock

/-- R199, R211: CLEAR_ALERT with its causes byte. -/
def runClearAlert (causes : Byte) (s : State) : State :=
  placeResult .clearAlert .done [] { s with alerts := clearAlerts causes (alertConditions s) s.alerts }

/-! ### Transactions (R180 to R183, R187, R189) -/

/-- R189: the length byte of a FETCH is in; the port chooses what to send. -/
def chooseResult (length : Byte) (s : State) : State :=
  match s.feed.txn with
  | some .nothing =>
    if length = 0 then
      let c := if s.feed.results = [] then Choice.empty else Choice.oldest
      { s with feed := { s.feed with txn := some c } }
    else s
  | _ => s

/-- R189: the chosen result has been clocked out whole, `n` bytes having been clocked. -/
def resultTaken (choice : Choice) (n : Nat) (s : State) : Bool :=
  match choice, s.feed.results with
  | .oldest, r :: _ => 3 + r.length ≤ n
  | _, _ => false

/-- R183, R187: a command transaction joins the buffer, or sets the overrun flag. -/
def offerTransaction (n : Nat) (bytes : List Byte) (s : State) : State :=
  if s.feed.buffer.length < feedPlaces then
    { s with feed := { s.feed with buffer := s.feed.buffer ++ [⟨bytes, judgeTransaction n bytes⟩] } }
  else { s with feed := { s.feed with overrun := true } }

/-- R181: the transaction is settled by the number of bits clocked. -/
def settleTransaction (choice : Choice) (bits : Nat) (bytes : List Byte) (s : State) : State :=
  let n := bits / 8
  if bits = 0 ∨ bits % 8 ≠ 0 then s
  else if byteAt bytes 0 = fetchCode then
    if resultTaken choice n s then { s with feed := { s.feed with results := s.feed.results.tail } } else s
  else offerTransaction n (bytes.take 257) s

/-! ### Commands -/

/-- FSEL_N_FALL (R180): FSEL_N is low and, on a powered station out of reset, a transaction begins. -/
def execFselNFall (t : Micros) (s : State) : Host.Outcome State Fault Refusal :=
  let s := s.at t
  .next (
    if s.power = .on ∧ s.feed.txn = none then
      { s with fselLow := true, feed := { s.feed with txn := some .nothing } }
    else { s with fselLow := true })

/-- FETCH (R189). -/
def execFetch (t : Micros) (length : Byte) (s : State) : Host.Outcome State Fault Refusal :=
  let s := s.at t
  .next (if s.power = .on then chooseResult length s else s)

/-- TRANSACTION_END (R181 to R183, R187, R189): FSEL_N rises; a transaction that a reset has ended is
settled no more (R181). -/
def execTransactionEnd (t : Micros) (bits : Nat) (bytes : List Byte) (s : State) :
    Host.Outcome State Fault Refusal :=
  let s := { s.at t with fselLow := false }
  .next (
    match s.feed.txn with
    | some choice =>
      if s.power = .on then
        feedSettle (settleTransaction choice bits bytes { s with feed := { s.feed with txn := none } })
      else s
    | none => s)

/-- A command of the head that other blocks act on, with what they then do. -/
def headCommand (c : FeedCommand) (t : Micros) (run : List Byte → State → State) (s : State) : State :=
  eventAt t (executeHead c run) s

/-- OPEN_BATCH (R190). -/
def execOpenBatch (t : Micros) (s : State) : Host.Outcome State Fault Refusal :=
  .next (headCommand .openBatch t (fun body => runOpenBatch (batchAt body 0) (field body 2 2)) s)

/-- PUT_RECORDS (R191, R192). -/
def execPutRecords (t : Micros) (s : State) : Host.Outcome State Fault Refusal :=
  .next (headCommand .putRecords t
    (fun body => runPutRecords (batchAt body 0) (recordsOf (byteAt body 2).toNat (body.drop 3))) s)

/-- CALL_FLIP (R193). -/
def execCallFlip (t : Micros) (s : State) : Host.Outcome State Fault Refusal :=
  .next (headCommand .callFlip t (fun body => runCallFlip (batchAt body 0)) s)

/-- STOP_BATCH (R194). -/
def execStopBatch (t : Micros) (s : State) : Host.Outcome State Fault Refusal :=
  .next (headCommand .stopBatch t (fun body => runStopBatch (batchAt body 0)) s)

/-- READ_STATUS (R195). -/
def execReadStatus (t : Micros) (s : State) : Host.Outcome State Fault Refusal :=
  .next (executeHead .readStatus (fun _ => runReadStatus) (s.at t))

/-- READ_ENTRY (R196). -/
def execReadEntry (t : Micros) (s : State) : Host.Outcome State Fault Refusal :=
  .next (executeHead .readEntry (fun body => runReadEntry (field body 0 2)) (s.at t))

/-- READ_COUNTERS (R197). -/
def execReadCounters (t : Micros) (s : State) : Host.Outcome State Fault Refusal :=
  .next (executeHead .readCounters (fun body => runReadCounters (byteAt body 0)) (s.at t))

/-- WRITE_ENABLE (R104, R198). -/
def execWriteEnable (t : Micros) (s : State) : Host.Outcome State Fault Refusal :=
  .next (executeHead .writeEnable
    (fun _ s => placeResult .writeEnable .done [] { s with dir := { s.dir with wel := true } }) (s.at t))

/-- WRITE_DISABLE (R104, R198). -/
def execWriteDisable (t : Micros) (s : State) : Host.Outcome State Fault Refusal :=
  .next (executeHead .writeDisable
    (fun _ s => placeResult .writeDisable .done [] (clearLatch s)) (s.at t))

/-- ASSIGN_POSITION (R103, R107, R198); LOCK_N is read at this moment. -/
def execAssignPosition (t : Micros) (lockN : Bool) (s : State) : Host.Outcome State Fault Refusal :=
  .next (headCommand .assignPosition t
    (fun body => directoryWrite .assignPosition lockN (assignAct body)) s)

/-- CLEAR_POSITION (R103, R108, R198). -/
def execClearPosition (t : Micros) (lockN : Bool) (s : State) : Host.Outcome State Fault Refusal :=
  .next (headCommand .clearPosition t
    (fun body => directoryWrite .clearPosition lockN (clearAct body)) s)

/-- SET_LOCK (R103, R106, R198). -/
def execSetLock (t : Micros) (lockN : Bool) (s : State) : Host.Outcome State Fault Refusal :=
  .next (headCommand .setLock t (fun body => directoryWrite .setLock lockN (lockAct body)) s)

/-- CLEAR_ALERT (R199, R211). -/
def execClearAlert (t : Micros) (s : State) : Host.Outcome State Fault Refusal :=
  .next (executeHead .clearAlert (fun body => runClearAlert (byteAt body 0)) (s.at t))

/-- UNKNOWN_COMMAND (R182, R184): the head is of no command; the latch stays (R198). -/
def execUnknownCommand (t : Micros) (s : State) : Host.Outcome State Fault Refusal :=
  let s := s.at t
  .next (
    match s.feed.buffer with
    | x :: _ =>
      if s.power = .on ∧ s.feed.results.length < 4 ∧ x.judgement = .unknownCommand then
        feedSettle (popHead { s with feed := { s.feed with
          results := s.feed.results ++ [⟨byteAt x.bytes 0, .unknownCommand, []⟩] } })
      else s
    | [] => s)

end Sys2Proof.Machine
end

