-- ==== Sys2Proof/Machine/FlashCommands.lean ====
section
/-! DEFINITION. The flash commands: a request finishes, an erase is suspended, an erase completes
(files 02 and 05, R33 to R38, R110). -/

namespace Sys2Proof.Machine

open Sys2Proof.Config

/-- R33: the engine serves its queue: no erase runs or is being suspended. -/
def serving (s : State) : Bool :=
  match s.flash.erase with
  | some ⟨_, .running _⟩ => false
  | some ⟨_, .suspending _ _⟩ => false
  | _ => true

/-- R33: freed places are granted to the requests that wait, in their order. -/
def flashGrant (s : State) : State :=
  match s.flash.waiting with
  | [] => s
  | op :: ops =>
    if s.flash.queue.length < flashPlaces then
      flashPush op { s with flash := { s.flash with waiting := ops } }
    else s

/-- R33, R40: the content of a finished read returns to its requester. -/
def readReturned (who : Reader) (b : Batch) (n : Nat) (s : State) : State :=
  match who with
  | .answer => answerReturned b n s
  | .preload k => preloadReturned k b n s
  | .walk => walkReturned b n s

/-- R33: the request in service finishes: a program is in flash, a read returns. -/
def finishRequest (op : FlashOp) (s : State) : State :=
  match op with
  | .read who b n => readReturned who b n s
  | op => programEffect op s

/-- R33: the head of the queue has finished; its place is freed. -/
def requestDone (op : FlashOp) (ops : List FlashOp) (s : State) : State :=
  directorySettle (finishRequest op
    (flashGrant { s with flash := { s.flash with queue := ops, doneAt := none } }))

/-- FLASH_REQUEST_DONE (R33): a program or read finishes. -/
def execFlashRequestDone (t : Micros) (s : State) : Host.Outcome State Fault Refusal :=
  let s := s.at t
  .next (
    match s.flash.queue with
    | op :: ops =>
      if s.power = .on ∧ serving s ∧ expired s.flash.doneAt s then settle s (requestDone op ops s) else s
    | [] => s)

/-- ERASE_SUSPEND (R34): 25 µs after a request arrived the erase stops and the queue is served. -/
def execEraseSuspend (t : Micros) (s : State) : Host.Outcome State Fault Refusal :=
  let s := s.at t
  .next (
    match s.flash.erase with
    | some ⟨target, .suspending ends at_⟩ =>
      if s.power = .on ∧ at_ ≤ s.now ∧ at_ < ends then
        flashSettle { s with flash := { s.flash with erase := some ⟨target, .suspended (ends - at_)⟩ } }
      else s
    | _ => s)

/-- R34: the erase in flight has run its 40 ms, a suspension that would come later not taking effect. -/
def eraseComplete (s : State) : Option EraseTarget :=
  match s.flash.erase with
  | some ⟨target, .running ends⟩ => if ends ≤ s.now then some target else none
  | some ⟨target, .suspending ends at_⟩ => if ends ≤ s.now ∧ ends ≤ at_ then some target else none
  | _ => none

/-- SECTOR_ERASE_COMPLETE (R21, R36, R38): the erase of a bank sector completes. -/
def execSectorEraseComplete (t : Micros) (s : State) : Host.Outcome State Fault Refusal :=
  let s := s.at t
  .next (
    match eraseComplete s with
    | some (.sector i n) => if s.power = .on then flashSettle (sectorErased i n s) else s
    | _ => s)

/-- R110: the erase of the entries sector is complete. -/
def entriesErased (s : State) : State :=
  rewritePrograms { s with dirFlash := [], flash := { s.flash with erase := none } }

/-- R110: the erase of the lock sector is complete; the present stored mode goes into its first place
(log entry 19). -/
def lockErased (s : State) : State :=
  lockWrite { s with
    lockFlash := []
    dir := { s.dir with lockUsed := 0, lockAgain := false }
    flash := { s.flash with erase := none } }

/-- DIRECTORY_ERASE_COMPLETE (R110): the erase of a directory sector completes. -/
def execDirectoryEraseComplete (t : Micros) (s : State) : Host.Outcome State Fault Refusal :=
  let s := s.at t
  .next (
    if s.power = .on then
      match eraseComplete s with
      | some .entries => flashSettle (directorySettle (entriesErased s))
      | some .lock => flashSettle (directorySettle (lockErased s))
      | _ => s
    else s)

end Sys2Proof.Machine
end

