-- ==== Sys2Proof/Machine/FlipCommands.lean ====
section
/-! DEFINITION. The commands of the flip coordinator: its timers (file 07, R150 to R160). -/

namespace Sys2Proof.Machine

open Sys2Proof.Config

/-- HOLD_TIMER_EXPIRY (R150, R152): the hold has run 3 s, its gap timer not having expired before
(log entry 26): the station flips. -/
def execHoldTimerExpiry (t : Micros) (s : State) : Host.Outcome State Fault Refusal :=
  let s := s.at t
  .next (
    match s.flip.hold with
    | some h =>
      if s.power = .on ∧ h.holdAt ≤ s.now ∧ h.holdAt ≤ h.gapAt then settle s (flipNow s) else s
    | none => s)

/-- GAP_TIMER_EXPIRY (R150): 750 ms have passed since the last call accepted: the hold is abandoned. -/
def execGapTimerExpiry (t : Micros) (s : State) : Host.Outcome State Fault Refusal :=
  let s := s.at t
  .next (
    match s.flip.hold with
    | some h => if s.power = .on ∧ h.gapAt ≤ s.now ∧ h.gapAt ≤ h.holdAt then endHold s else s
    | none => s)

/-- CALL_TIMER_EXPIRY (R158): a 250 ms tick of the call period. -/
def execCallTimerExpiry (t : Micros) (s : State) : Host.Outcome State Fault Refusal :=
  let s := s.at t
  .next (
    match s.flip.call with
    | some c =>
      if s.power = .on ∧ c.tickAt ≤ s.now ∧ c.tickAt < c.endsAt then contend (callTicked c s) else s
    | none => s)

/-- CALL_PERIOD_EXPIRY (R157): the call period has lasted 30 s. -/
def execCallPeriodExpiry (t : Micros) (s : State) : Host.Outcome State Fault Refusal :=
  let s := s.at t
  .next (
    match s.flip.call with
    | some c => if s.power = .on ∧ c.endsAt ≤ s.now then endCall s else s
    | none => s)

/-- QUIET_TIMER_EXPIRY (R160): no FLIP for the live batch has been heard for the quiet period. At the very
end of the echo period it is not honoured (log entry 49). -/
def execQuietTimerExpiry (t : Micros) (s : State) : Host.Outcome State Fault Refusal :=
  let s := s.at t
  .next (
    match s.flip.echo with
    | some e =>
      if s.power = .on ∧ e.quietAt ≤ s.now ∧ e.quietAt < e.endsAt then contend (quietExpired e s) else s
    | none => s)

/-- ECHO_PERIOD_EXPIRY (R159): the echo period has lasted 60 s. -/
def execEchoPeriodExpiry (t : Micros) (s : State) : Host.Outcome State Fault Refusal :=
  let s := s.at t
  .next (
    match s.flip.echo with
    | some e => if s.power = .on ∧ e.endsAt ≤ s.now then endEcho s else s
    | none => s)

end Sys2Proof.Machine
end

