-- ==== Sys2Proof/WellFormed.lean ====
section
/-! DEFINITION. Which commands are well formed: operands the spec's ports can carry. The meanings
are total and do not assume it. -/

namespace Sys2Proof

open Machine (stationFits frameFits)

/-- A frame as one accepted can be: source 1..254 and body fields in range (R50). -/
def frameWf (src : Byte) (f : Frame) : Bool :=
  stationFits src && frameFits f

/-- The kinds that carry the identity-due mark (R128). -/
def identityKind : JobKind → Bool
  | .census => true
  | .revisit => true
  | _ => false

/-- The kinds a refusal can retry (R121). -/
def retryKind : JobKind → Bool
  | .census => true
  | .revisit => true
  | .preload => true
  | .assign => true
  | .swap => true
  | _ => false

/-- R116: an IDENT answer carries seven article bytes. -/
def answerWf : Answer → Bool
  | .ident a => a.article.length = 7
  | _ => true

/-- A session that did not end DONE read nothing; one that did read something. -/
def endingWf (e : SessionEnd) (a : Answer) : Bool :=
  (e = .done) = (a ≠ .nothing)

/-- A well-formed command. -/
def Instr.wf : Instr → Bool
  | .transactionEnd _ bits bytes => bytes.length = min 257 (bits / 8)
  | .frameDiscarded _ _ bytes => bytes.length ≤ 261
  | .openFrame _ src b n r => frameWf src (.opening b n r)
  | .priceFrame _ src b r rs => frameWf src (.price b r rs)
  | .digestFrame _ src d => frameWf src (.digest d)
  | .wantFrame _ src b rs => frameWf src (.want b rs)
  | .stopFrame _ src b => frameWf src (.stop b)
  | .flipFrame _ src b e => frameWf src (.flip b e)
  | .claimFrame _ src p => frameWf src (.claim p)
  | .yieldFrame _ src p => frameWf src (.yield p)
  | .provingSessionEnd _ _ _ read => read.length = 0 || read.length = 64
  | .censusSessionEnd _ _ e a => answerWf a && endingWf e a
  | .revisitSessionEnd _ _ e a => answerWf a && endingWf e a
  | .pollSessionEnd _ _ e a => answerWf a && endingWf e a
  | .refusalCheckEnd _ _ e a => answerWf a && endingWf e a
  | .identityDue _ _ k _ => identityKind k
  | .identityDueTimeout _ _ k _ => identityKind k
  | .refusedJobRetry _ _ k _ => retryKind k
  | .powerOn .. | .powerLoss .. | .resetNFall .. | .resetNRise .. | .scanEnd .. | .listenEnd ..
  | .fetch .. | .openBatch .. | .putRecords .. | .callFlip .. | .stopBatch .. | .readStatus ..
  | .readEntry .. | .readCounters .. | .writeEnable .. | .writeDisable .. | .assignPosition ..
  | .clearPosition .. | .setLock .. | .clearAlert .. | .restart .. | .unknownCommand ..
  | .lineIdle .. | .transmitStart .. | .collision .. | .transmissionComplete ..
  | .transmitPlaceGranted .. | .digestTimerExpiry .. | .isolationTimerExpiry ..
  | .wantDelayExpiry .. | .wantWaitExpiry .. | .trailingGapTimerExpiry .. | .answerTimerExpiry ..
  | .flashRequestDone .. | .eraseSuspend .. | .sectorEraseComplete .. | .directoryEraseComplete ..
  | .swapSessionEnd .. | .preloadSessionEnd .. | .assignSessionEnd .. | .stretchTimeout ..
  | .railResetPulseEnd .. | .railPowerLost .. | .railPowerReturn .. | .deadRailReprove ..
  | .pollDue .. | .revisitDue .. | .holdTimerExpiry .. | .gapTimerExpiry .. | .callTimerExpiry ..
  | .callPeriodExpiry .. | .quietTimerExpiry .. | .echoPeriodExpiry ..
  | .partnerSilenceTimerExpiry .. | .claimGuardExpiry .. | .holdLineAsserted ..
  | .waitReleaseTimeout .. | .holderSilence .. | .takingComplete .. | .holdLineReadbackReleased ..
  | .lineBusy .. | .fselNFall .. | .holdLineReadbackAsserted .. => true

end Sys2Proof
end

