-- ==== Sys2Proof/Machine/RailCommands.lean ====
section
/-! DEFINITION. The rail commands: ends of sessions, the rail reset pulse, rail power and the due
times of jobs (files 06 and 07, R112 to R145). -/

namespace Sys2Proof.Machine

open Sys2Proof.Config

/-- PROVING_SESSION_END (R123, R124). -/
def execProvingSessionEnd (t : Micros) (k : Fin 4) (e : SessionEnd) (read : List Byte) (s : State) :
    Host.Outcome State Fault Refusal :=
  .next (eventAt t (provingEnded k (outcomeOf e) read) s)

/-- CENSUS_SESSION_END (R132). -/
def execCensusSessionEnd (t : Micros) (k : Fin 4) (e : SessionEnd) (a : Answer) (s : State) :
    Host.Outcome State Fault Refusal :=
  .next (eventAt t (inquiryEnded .census k e a) s)

/-- REVISIT_SESSION_END (R133). -/
def execRevisitSessionEnd (t : Micros) (k : Fin 4) (e : SessionEnd) (a : Answer) (s : State) :
    Host.Outcome State Fault Refusal :=
  .next (eventAt t (inquiryEnded .revisit k e a) s)

/-- POLL_SESSION_END (R134, R143, R144). -/
def execPollSessionEnd (t : Micros) (k : Fin 4) (e : SessionEnd) (a : Answer) (s : State) :
    Host.Outcome State Fault Refusal :=
  .next (eventAt t (pollEnded k e a) s)

/-- SWAP_SESSION_END (R140). -/
def execSwapSessionEnd (t : Micros) (k : Fin 4) (e : SessionEnd) (s : State) :
    Host.Outcome State Fault Refusal :=
  .next (eventAt t (swapEnded k (outcomeOf e)) s)

/-- PRELOAD_SESSION_END (R135, R138). -/
def execPreloadSessionEnd (t : Micros) (k : Fin 4) (e : SessionEnd) (s : State) :
    Host.Outcome State Fault Refusal :=
  .next (eventAt t (preloadEnded k (outcomeOf e)) s)

/-- ASSIGN_SESSION_END (R137). -/
def execAssignSessionEnd (t : Micros) (k : Fin 4) (e : SessionEnd) (s : State) :
    Host.Outcome State Fault Refusal :=
  .next (eventAt t (assignEnded k (outcomeOf e)) s)

/-- REFUSAL_CHECK_END (R121, R145). -/
def execRefusalCheckEnd (t : Micros) (k : Fin 4) (e : SessionEnd) (a : Answer) (s : State) :
    Host.Outcome State Fault Refusal :=
  .next (eventAt t (refusalEnded k (outcomeOf e) a) s)

/-- STRETCH_TIMEOUT (R114, R119): a stretch exceeds 5 ms; the rail reset pulse follows. -/
def execStretchTimeout (t : Micros) (k : Fin 4) (s : State) : Host.Outcome State Fault Refusal :=
  .next (eventAt t (beginPulse k) s)

/-- R114: the rail reset pulse has lasted its 2 ms. -/
def endPulse (k : Fin 4) (s : State) : State :=
  match (s.engine k).activity with
  | .pulse _ ends => if ends ≤ s.now then s.setActivity k .idle else s
  | _ => s

/-- RAIL_RESET_PULSE_END (R114). -/
def execRailResetPulseEnd (t : Micros) (k : Fin 4) (s : State) : Host.Outcome State Fault Refusal :=
  .next (eventAt t (endPulse k) s)

/-- RAIL_POWER_LOST (R127). The power-sense level is the pin's own and follows it on any station. -/
def execRailPowerLost (t : Micros) (r : Fin 8) (s : State) : Host.Outcome State Fault Refusal :=
  let s := s.at t
  .next (if s.power = .on then settle s (powerLost r s) else onRail r (fun x => { x with power := false }) s)

/-- RAIL_POWER_RETURN (R127, R122). -/
def execRailPowerReturn (t : Micros) (r : Fin 8) (s : State) : Host.Outcome State Fault Refusal :=
  let s := s.at t
  .next (if s.power = .on then settle s (powerReturned r s) else onRail r (fun x => { x with power := true }) s)

/-- DEAD_RAIL_REPROVE (R125): 60 s have passed on a DEAD rail. -/
def execDeadRailReprove (t : Micros) (r : Fin 8) (s : State) : Host.Outcome State Fault Refusal :=
  .next (eventAt t (reproveDue r) s)

/-- POLL_DUE (R128): the due time of a POLL job passes. -/
def execPollDue (t : Micros) (r : Fin 8) (p : Fin 64) (s : State) : Host.Outcome State Fault Refusal :=
  .next (eventAt t (jobDue r .poll p) s)

/-- REVISIT_DUE (R128): the due time of a REVISIT job passes. -/
def execRevisitDue (t : Micros) (r : Fin 8) (p : Fin 64) (s : State) : Host.Outcome State Fault Refusal :=
  .next (eventAt t (jobDue r .revisit p) s)

/-- IDENTITY_DUE (R132): the 500 ms of an identity-due job pass. -/
def execIdentityDue (t : Micros) (r : Fin 8) (kind : JobKind) (p : Fin 64) (s : State) :
    Host.Outcome State Fault Refusal :=
  .next (eventAt t (fun s => if identityKind kind then jobDue r kind p s else s) s)

/-- IDENTITY_DUE_TIMEOUT (R132): 10 s have passed since the first STATUS of an identity-due job. -/
def execIdentityDueTimeout (t : Micros) (r : Fin 8) (kind : JobKind) (p : Fin 64) (s : State) :
    Host.Outcome State Fault Refusal :=
  .next (eventAt t (fun s => if identityKind kind then identityEnded r kind p s else s) s)

/-- REFUSED_JOB_RETRY (R121, R145): the 500 ms of a refused job pass. -/
def execRefusedJobRetry (t : Micros) (r : Fin 8) (kind : JobKind) (p : Fin 64) (s : State) :
    Host.Outcome State Fault Refusal :=
  .next (eventAt t (fun s => if retryKind kind then jobDue r kind p s else s) s)

end Sys2Proof.Machine
end

