-- ==== Sys2Proof/Machine/RepairCommands.lean ====
section
/-! DEFINITION. The repair commands: the timers of the repair engine (file 04, R71 to R84). -/

namespace Sys2Proof.Machine

open Sys2Proof.Config

/-- WANT_DELAY_EXPIRY (R73): the WANT of a DELAYING slot is built and offered. -/
def execWantDelayExpiry (t : Micros) (k : Fin 8) (s : State) : Host.Outcome State Fault Refusal :=
  let s := s.at t
  .next (
    match s.slot k with
    | some w =>
      match w.phase with
      | .delaying d => if s.power = .on ∧ d ≤ s.now then contend (offerWant k w s) else s
      | _ => s
    | none => s)

/-- WANT_WAIT_EXPIRY (R75): the 1 s wait of a slot has passed. -/
def execWantWaitExpiry (t : Micros) (k : Fin 8) (s : State) : Host.Outcome State Fault Refusal :=
  let s := s.at t
  .next (
    match s.slot k with
    | some w =>
      match w.phase with
      | .waiting d => if s.power = .on ∧ d ≤ s.now then waitExpired k w s else s
      | _ => s
    | none => s)

/-- TRAILING_GAP_TIMER_EXPIRY (R71): a gap trigger for the next batch; the timer does not restart. -/
def execTrailingGapTimerExpiry (t : Micros) (s : State) : Host.Outcome State Fault Refusal :=
  let s := s.at t
  .next (
    if s.power = .on ∧ expired s.repair.trailingAt s then
      let s := { s with repair := { s.repair with trailingAt := none } }
      match s.nextBatch with
      | some b => gapTrigger b s
      | none => s
    else s)

/-- ANSWER_TIMER_EXPIRY (R83): the answer list of a batch passes into its run, which is sent. -/
def execAnswerTimerExpiry (t : Micros) (b : Batch) (s : State) : Host.Outcome State Fault Refusal :=
  let s := s.at t
  .next (
    match answerList? s b with
    | some l => if s.power = .on ∧ l.timer ≤ s.now then contend (flashSettle (answerExpired l s)) else s
    | none => s)

end Sys2Proof.Machine
end

