-- ==== Sys2Proof/Machine/Scan.lean ====
section
/-! DEFINITION. The start-up scan: the directory load, the bank scan and the restaging walk of SCAN
(files 02 and 05, R43 to R45, R91, R111). -/

namespace Sys2Proof.Machine

open Sys2Proof.Config

/-! ### The directory load (R91, R111) -/

/-- R91: a home entry loaded with its article. -/
def loadedEntry (a : Nat) : Entry :=
  { Entry.vacant with article := some a, state := .current }

/-- R111: the home entries whose places give an article. -/
def loadEntries (d : Table PlaceContent) : Table Entry :=
  d.filterMap fun c =>
    match c.2 with
    | .article a => if c.1 < 256 then some (c.1, loadedEntry a) else none
    | _ => none

/-- R111: every place that does not read erased is WRITTEN. -/
def loadPlaces (d : Table PlaceContent) : Table PlaceState :=
  d.map fun c => (c.1, .written)

/-- R111: the stored lock mode, of the last lock place whose check agrees. -/
def loadMode : Table LockContent → StoredMode
  | [] => .open
  | c :: cs =>
    match cs.any (fun x => match x.2 with | .mode _ => true | _ => false), c.2 with
    | false, .mode m => m
    | _, _ => loadMode cs

/-- R91, R111: at the start of SCAN the directory reads its two sectors. -/
def directoryLoad (s : State) : State :=
  { s with dir := { s.dir with
      entries := loadEntries s.dirFlash, places := loadPlaces s.dirFlash
      storedMode := loadMode s.lockFlash, lockUsed := s.lockFlash.length } }

/-! ### The headers (R43) -/

/-- R43: the value of a count place. -/
def countPlace (header : List Byte) (k : Nat) : Nat :=
  field header (5 + 2 * k) 2

/-- R43: the last value of the rising row of count places, of `fuel` places from place `k`. -/
def countRow (header : List Byte) : Nat → Nat → Nat → Nat
  | 0, _, last => last
  | fuel + 1, k, last =>
    let v := countPlace header k
    if v < last ∨ v < 1 ∨ maxCount < v then last else countRow header fuel (k + 1) v

/-- R43: the header check agrees. -/
def headerValid (header : List Byte) : Bool :=
  field header 2 2 = byteSum (slice header 0 2 ++ slice header 5 2)

/-- R43: the role of a mark. -/
def roleOfMark (mark : Byte) : Role :=
  if mark = 0xFF then .next else if mark = 0x00 then .retired else .live

/-- R25: the count places no longer erased. -/
def usedPlaces (header : List Byte) : List Nat :=
  (List.range 12).filter fun k => countPlace header k ≠ 65535

/-- R43, R44: a bank of role NONE, or one retired, with its full erase list (log entry 16). -/
def unreadBank (k : Bank) : Bank :=
  { k with eraseList := List.range 256, dirty := List.range 256 }

/-- R43: what a header gives its bank before its slots are read; a valid header whose first count
place is out of range gives role NONE (log entry 20). -/
def headerBank (header : List Byte) : Bank :=
  let t := countRow header 12 0 0
  if headerValid header ∧ t ≠ 0 then
    { Bank.blank with
      role := roleOfMark (byteAt header 4), batch := some (BitVec.ofNat 16 (field header 0 2))
      count := t, header := some .written, placesUsed := usedPlaces header }
  else Bank.blank

/-- R43, step 6: a NEXT bank that is not newer than the LIVE one is RETIRED. -/
def staleNext (live next : Bank) : Bank :=
  match live.batch, next.batch with
  | some l, some n => if live.role = .live ∧ next.role = .next ∧ !newer n l then { next with role := .retired } else next
  | _, _ => next

/-- R43, steps 4 and 5: of two banks in the same role the one with the newer batch keeps it, A where
neither is newer. -/
def settleRoles (a b : Bank) : Bank × Bank :=
  if a.role = b.role ∧ (a.role = .live ∨ a.role = .next) then
    if newer (b.batch.getD 0) (a.batch.getD 0) then ({ a with role := .retired }, b)
    else (a, { b with role := .retired })
  else (staleNext b a, staleNext a b)

/-! ### The slots (R44) -/

/-- The address range of a bank. -/
def inBank (i : BankId) (a : Nat) : Bool :=
  slotAddr i 0 ≤ a && a < slotAddr i 32768

/-- R44: the slots of a bank that do not read erased, ascending; slot 0 is the header. -/
def writtenSlots (i : BankId) (m : List Host.Cell) : List Nat :=
  (m.filter fun c => inBank i c.1).foldl (fun ns c =>
    let n := (c.1 - slotAddr i 0) / 32
    if ns.getLast? = some n then ns else ns ++ [n]) []

/-- R44: the slot holds a good record of batch `b`; no other check of R5 is made here (log entry 59). -/
def goodRecord (m : List Host.Cell) (i : BankId) (b : Batch) (n : Nat) : Bool :=
  let r := readSlot m i n
  n ≠ 0 && recCheckAgrees r && recBatch r = b && recSeq r = n

/-- R44: the slots of a bank in role NEXT or LIVE are sorted. A raised record count is raised in RAM
alone; no count place is programmed for it (log entry 43). -/
def readBank (m : List Host.Cell) (i : BankId) (k : Bank) : Bank :=
  let b := k.batch.getD 0
  let written := writtenSlots i m
  let good := written.filter (goodRecord m i b)
  let damaged := written.filter fun n => n ≠ 0 && !goodRecord m i b n
  let goodSector := fun x => good.any fun n => sectorOf n = x
  { k with
    count := max k.count (good.getLast?.getD 0)
    marks := good.map fun n => (n, .stored)
    spoiled := damaged.filter fun n => goodSector (sectorOf n)
    eraseList := ((damaged.map sectorOf).filter fun x => !goodSector x).dedup
    dirty := (written.map sectorOf).dedup }

/-- R44: one bank after its header has settled its role. -/
def scanBank (m : List Host.Cell) (i : BankId) (k : Bank) : Bank :=
  if k.role = .next ∨ k.role = .live then readBank m i k else unreadBank k

/-- R43, R44: the bank scan. -/
def bankScan (s : State) : State :=
  let banks := settleRoles (headerBank (readSlot s.mem .a 0)) (headerBank (readSlot s.mem .b 0))
  { s with bankA := scanBank s.mem .a banks.1, bankB := scanBank s.mem .b banks.2 }

/-! ### The walk (R45) -/

/-- R45: the STORED records of a batch are staged in ascending order. -/
def restageBatch (b : Batch) (s : State) : State :=
  (marksOf s b).foldl (fun s c =>
    match s.record b c.1 with
    | some r => stageRecord b c.1 r s
    | none => s) s

/-- R45: the LIVE bank, then the NEXT bank. -/
def restageAll (s : State) : State :=
  (s.liveBatch.toList ++ s.nextBatch.toList).foldl (fun s b => restageBatch b s) s

/-- R204: the work of SCAN that follows the directory load: the bank scan and the restaging walk. -/
def scan (s : State) : State :=
  restageAll (bankScan s)

end Sys2Proof.Machine
end

