-- ==== Sys2Proof/Machine/StartupCommands.lean ====
section
/-! DEFINITION. The supply, the three resets and the start phases (files 02, 05 and 10, R42, R111,
R200 to R206). -/

namespace Sys2Proof.Machine

open Sys2Proof.Config

/-! ### Flash operations in flight (R42, R111) -/

/-- R42: a cut-off program has cleared some of the bits it would clear (log entry 7). -/
def cutProgram : List Host.Cell → Nat → List Byte → Nat → List Host.Cell
  | m, _, [], _ => m
  | m, a, b :: bs, d => cutProgram (programByte m a (b ||| cutByte d)) (a + 1) bs (d + 1)

/-- R42: a cut-off erase of a bank sector has set some of its bits (log entry 7). -/
def cutErase (i : BankId) (sector : Nat) (d : Nat) (m : List Host.Cell) : List Host.Cell :=
  m.filterMap fun c =>
    if inSector i sector c.1 then
      let v := c.2 ||| cutByte (d + c.1)
      if v = 0xFF then none else some (c.1, v)
    else some c

/-- R111: a cut-off erase of the entries sector leaves some places erased or damaged. -/
def cutEntries (d : Nat) (t : Table PlaceContent) : Table PlaceContent :=
  t.filterMap fun c =>
    match cutChoice (d + c.1) % 3 with
    | 0 => none
    | 1 => some (c.1, .damaged)
    | _ => some c

/-- R111: a cut-off erase of the lock sector leaves no place whose check agrees. -/
def cutLocks (d : Nat) (t : Table LockContent) : Table LockContent :=
  t.filterMap fun c => if cutChoice (d + c.1) % 2 = 0 then none else some (c.1, .damaged)

/-- Free values a cut takes; above every address. -/
abbrev cutDraws : Nat := 4194304

/-- R42, R111: the erase in flight or suspended is cut off. -/
def cutOffErase (s : State) : State :=
  match s.flash.erase with
  | none => s
  | some e =>
    let s' := { s with draws := s.draws + cutDraws }
    match e.target with
    | .sector i n => { s' with mem := cutErase i n s.draws s.mem }
    | .entries => { s' with dirFlash := cutEntries s.draws s.dirFlash }
    | .lock => { s' with lockFlash := cutLocks s.draws s.lockFlash }

/-- R33: the request in service, if the engine serves one. -/
def inService (s : State) : Option FlashOp :=
  match s.flash.doneAt, s.flash.queue with
  | some _, op :: _ => some op
  | _, _ => none

/-- R42, R111: the program in service is cut off; a read leaves nothing. -/
def cutOffProgram (s : State) : State :=
  match inService s with
  | none => s
  | some op =>
    let s' := { s with draws := s.draws + cutDraws }
    let bad := cutChoice s.draws % 2 = 1
    match op with
    | .place slot _ _ =>
      if bad then { s' with dirFlash := Sparse.put .erased s.dirFlash slot .damaged } else s'
    | .lockPlace p _ =>
      if bad then { s' with lockFlash := Sparse.put .erased s.lockFlash p .damaged } else s'
    | op =>
      match opBytes op with
      | some (a, bs) => { s' with mem := cutProgram s.mem a bs s.draws }
      | none => s

/-- R42: the program in service finishes, at a RESTART. -/
def finishProgram (s : State) : State :=
  match inService s with
  | some op => programEffect op s
  | none => s

/-! ### Resets (R203) -/

/-- R203: what a reset leaves: the flash, the clock, the free values taken and the levels of the pins
(rail power, RESET_N and FSEL_N); every other state is at its reset value, with the straps sampled. -/
def coldState (straps : Straps) (sessionLock : Bool) (s : State) : State :=
  { State.reset with
    pending := s.pending, now := s.now, draws := s.draws, straps := straps
    mem := s.mem, dirFlash := s.dirFlash, lockFlash := s.lockFlash
    dir := Directory.reset sessionLock
    rails := s.rails.map fun r => Rail.reset r.power, resetLow := s.resetLow, fselLow := s.fselLow }

/-- R203, R91, R111: a start sequence begins: after the reset SCAN starts with the directory load. -/
def beginScan (straps : Straps) (sessionLock : Bool) (s : State) : State :=
  directoryLoad (coldState straps sessionLock s)

/-- R42, R203: supply and RESET_N cut off what the flash engine does. -/
def cutFlash (s : State) : State :=
  cutOffErase (cutOffProgram s)

/-- R203: while RESET_N is low a powered station is inert, every block at its reset value. -/
def holdReset (straps : Straps) (s : State) : State :=
  { coldState straps false s with power := .held }

/-- POWER_ON (R201, R203): the supply becomes valid and the straps are sampled; with RESET_N low the station
stays inert until it rises (log entry 29). -/
def execPowerOn (t : Micros) (straps : Straps) (s : State) : Host.Outcome State Fault Refusal :=
  let s := cutFlash (s.at t)
  .next (if s.resetLow then holdReset straps s else beginScan straps false s)

/-- POWER_LOSS (R42): the supply fails and all RAM state is lost. -/
def execPowerLoss (t : Micros) (s : State) : Host.Outcome State Fault Refusal :=
  .next { coldState s.straps false (cutFlash (s.at t)) with power := .off }

/-- RESET_N_FALL (R203): the station is inert while RESET_N is low; without a supply the pin alone changes. -/
def execResetNFall (t : Micros) (s : State) : Host.Outcome State Fault Refusal :=
  let s := { s.at t with resetLow := true }
  .next (if s.power = .on then holdReset s.straps (cutFlash s) else s)

/-- RESET_N_RISE (R203): straps are sampled and the start sequence begins; without a supply the pin alone
changes. -/
def execResetNRise (t : Micros) (straps : Straps) (s : State) : Host.Outcome State Fault Refusal :=
  let s := { s.at t with resetLow := false }
  .next (if s.power = .held then beginScan straps false s else s)

/-- R42, R200: the restart: a program in flight finishes, an erase is cut off, the session lock is kept. -/
def restartNow (straps : Straps) (s : State) : State :=
  beginScan straps s.dir.sessionLock (cutOffErase (finishProgram s))

/-- RESTART (R200, R203): the head RESTART executes in any phase without waiting and places no result. One
judged BAD_LENGTH restarts nothing: it waits for a result place and places that result by R184, where R185,
R188 and R200 name no result of a RESTART (the model's choice, log entry 62). -/
def execRestart (t : Micros) (straps : Straps) (s : State) : Host.Outcome State Fault Refusal :=
  let s := s.at t
  .next (
    match headOf .restart s with
    | none => s
    | some x =>
      if s.power ≠ .on then s
      else if x.judgement = .wellFormed then restartNow straps s
      else if s.feed.results.length < 4 then feedSettle (badLength .restart s)
      else s)

/-! ### Start phases (R204 to R206) -/

/-- R205: LISTEN begins. -/
def beginListen (s : State) : State :=
  startSilence { s with
    phase := .listen, listenUntil := some (s.now + listenTime)
    trunk := { s.trunk with line := .quiet, isolationAt := some (s.now + isolationTime) } }

/-- SCAN_END (R204, R205): the work of SCAN is done and LISTEN begins; the erases on the lists begin. The
bank scan and the walk take effect at this moment (log entry 52), the directory load at SCAN's start. -/
def execScanEnd (t : Micros) (s : State) : Host.Outcome State Fault Refusal :=
  let s := s.at t
  .next (if s.power = .on ∧ s.phase = .scan then flashSettle (beginListen (scan s)) else s)

/-- R206: RUN begins. -/
def beginRun (s : State) : State :=
  feedSettle (contend (decideHome (startTrailing (startDigest { s with phase := .run, listenUntil := none }))))

/-- LISTEN_END (R206): the 3 s of LISTEN have passed. -/
def execListenEnd (t : Micros) (s : State) : Host.Outcome State Fault Refusal :=
  let s := s.at t
  .next (if s.power = .on ∧ s.phase = .listen ∧ expired s.listenUntil s then beginRun s else s)

end Sys2Proof.Machine
end

