-- ==== Sys2Proof/Machine/Trunk.lean ====
section
/-! DEFINITION. The trunk commands: frames received, line and transmission events, the digest and
isolation timers (file 03, R46 to R64, with R51's hand-over to the other blocks). -/

namespace Sys2Proof.Machine

open Sys2Proof.Config

/-! ### The line (R46, R47, R58, R201) -/

/-- R46: what one station does to the line in a bit time. -/
inductive Drive where
  | undriven | one | zero
deriving DecidableEq, Repr

/-- R46: what every station reads of the line in a bit time. -/
inductive LineLevel where
  | undriven | one | zero | invalid
deriving DecidableEq, Repr

/-- R46: what a station does to send a bit. -/
def Drive.ofBit (b : Bool) : Drive :=
  if b then .one else .zero

/-- R46: the level that one station's driving gives. -/
def Drive.level : Drive → LineLevel
  | .undriven => .undriven
  | .one => .one
  | .zero => .zero

/-- R46: the level under what all the stations do in a bit time; two that drive make it invalid,
whichever bits they drive. -/
def lineLevel (ds : List Drive) : LineLevel :=
  match ds.filter (· ≠ .undriven) with
  | [] => .undriven
  | [d] => d.level
  | _ => .invalid

/-- R46, R57: the station drives the trunk. -/
def State.trunkDriven (s : State) : Bool :=
  s.power = .on && s.trunk.transmitting

/-- R47, R201: the bytes of the frame in transmission, whose source is the station number; none while
the station does not drive the trunk. -/
def State.sentBytes (s : State) : List Byte :=
  if s.trunkDriven then
    match s.trunk.queue with
    | h :: _ => frameWire s.station h.frame
    | [] => []
  else []

/-- R46: what the station does to the line in bit time `n` of its transmission, counted from 0: the
bytes go out most significant bit first with no gap, and the line is left undriven otherwise. -/
def State.drives (s : State) (n : Nat) : Drive :=
  match (bitsOf s.sentBytes)[n]? with
  | some b => .ofBit b
  | none => .undriven

/-- R46, R47: the time a frame takes to send. -/
def frameTime (f : Frame) : Micros :=
  8 * (6 + (frameBody f).length) * trunkBitTime

/-- R58: the station reads another level than it drives in bit time `n`, the others doing `ds`. -/
def State.mismatch (s : State) (n : Nat) (ds : List Drive) : Bool :=
  s.drives n ≠ .undriven && lineLevel (s.drives n :: ds) ≠ (s.drives n).level

/-! ### Counters and alerts of the trunk -/

def countCrcError (s : State) : State :=
  { s with counters := { s.counters with crcErrors := bump s.counters.crcErrors } }

def setLine (l : LineState) (s : State) : State :=
  { s with trunk := { s.trunk with line := l } }

/-! ### Reception (R48, R50 to R53) -/

/-- R48, R63: a frame can end at this receiver: it is on, the line is BUSY and the station does not
transmit. -/
def receiving (s : State) : Bool :=
  s.power = .on && s.phase ≠ .scan && s.trunk.line = .busy && !s.trunk.transmitting

/-- R53: the isolation timer restarts and an isolation ends. -/
def endIsolation (s : State) : State :=
  { s with
    trunk := { s.trunk with isolated := false, isolationAt := some (s.now + isolationTime) }
    alerts := { s.alerts with isolated := if s.trunk.isolated then false else s.alerts.isolated } }

/-- R52: a frame that carries the station's own number. -/
def noteDuplicate (src : Byte) (s : State) : State :=
  if src = s.station then { s with alerts := { s.alerts with duplicate := true } } else s

/-- R53: the row of a source restarts. -/
def noteSource (src : Byte) (s : State) : State :=
  { s with trunk := { s.trunk with
      sources := Sparse.put none s.trunk.sources src.toNat (some s.now) } }

/-- R50: the frames received counter. -/
def countFrame (s : State) : State :=
  { s with counters := { s.counters with framesReceived := bump s.counters.framesReceived } }

/-- R48, R50, R52, R53, R163, R173: what every accepted frame from another station does. -/
def frameAccepted (src : Byte) (s : State) : State :=
  partnerHeard src (endIsolation (noteSource src (noteDuplicate src (countFrame (setLine .quiet s)))))

/-- R50: a frame ends. Operands no accepted frame can have make it malformed (log entry 31). -/
def receive (t : Micros) (src : Byte) (f : Frame) (hand : State → State) (s : State) : State :=
  let s := s.at t
  if !receiving s then s
  else if !(stationFits src && frameFits f) then countCrcError (setLine .quiet s)
  else settle s (hand (frameAccepted src s))

/-! ### Hand-over (R51) -/

/-- R51, R70, R81: the repair engine takes an OPEN. -/
def repairOpen (b : Batch) (s : State) : State :=
  clearHeaderAnswers b (satisfyHeaders b s)

/-- R50: the records of a PRICE frame that are delivered: valid, and of the frame's batch. -/
def delivered (b : Batch) (rs : List Record) : List Record :=
  rs.filter fun r => recValid r && recBatch r = b

/-- R71, R81: the repair engine takes a PRICE frame. -/
def repairPrice (b : Batch) (rs : List Record) (s : State) : State :=
  let s := trimAnswers b ((delivered b rs).map recSeq) s
  if s.nextBatch = some b then startTrailing s else s

/-- R68: the record count and held count a DIGEST reports for a batch. -/
def reported (d : Digest) (b : Batch) : Option (Nat × Nat) :=
  if d.next = some b then some (d.nextCount.toNat, d.nextHeld.toNat)
  else if d.live = some b then some (d.liveCount.toNat, d.liveHeld.toNat)
  else none

/-- R68: a DIGEST is compared with the bank in a role. A peer that reports the batch complete at its own T
is a gap trigger by the third condition though it holds no more than this station (log entry 55). -/
def compareBank (d : Digest) (role : Role) (s : State) : State :=
  match s.bankIn role with
  | none => s
  | some i =>
    let k := s.bank i
    match k.batch with
    | none => s
    | some b =>
      match reported d b with
      | none => s
      | some (t, held) =>
        let s := if !k.complete ∧ (k.held < held ∨ held = t) then gapTrigger b s else s
        if role = .next ∧ k.count < t then headerRequest b s else s

/-- R69: a DIGEST names a next batch not known here. -/
def unknownNext (d : Digest) (s : State) : State :=
  match d.next with
  | some b => if s.newerThanBoth b then headerRequest b s else s
  | none => s

/-- R177: a DIGEST whose held partner is this station. -/
def digestHolder (src : Byte) (d : Digest) (s : State) : State :=
  if names d.heldPartner s then noteTrigger src s else s

/-- R68, R69, R177: a DIGEST is taken. Where slots run short they go to the NEXT bank's missing records,
its header, the LIVE bank's missing records and R69's header, in this order (log entry 46). -/
def takeDigest (src : Byte) (d : Digest) (s : State) : State :=
  digestHolder src d (unknownNext d (compareBank d .live (compareBank d .next s)))

/-! ### The digest (R55, R61) -/

def count16 (n : Nat) : BitVec 16 := BitVec.ofNat 16 n

/-- R61: an entry counts as staged. -/
def stagedOnNext (s : State) (e : Entry) : Bool :=
  e.pending.isSome && e.pending.map PendingRecord.batch = s.nextBatch
    && (e.state = .staged || e.state = .preloading || e.state = .preloaded || e.state = .swapping)

/-- R61, R162: the held partner. -/
def heldPartner (s : State) : Byte :=
  if s.adopt.holder = .holding ∨ s.adopt.holder = .yielding then s.straps.ptn else 0

/-- R61: the DIGEST of the station's state at this moment. -/
def digestNow (s : State) : Digest :=
  let live := (s.bankIn .live).map s.bank
  let next := (s.bankIn .next).map s.bank
  { live := s.liveBatch
    livePhase := s.livePhase
    liveCount := count16 ((live.map Bank.count).getD 0)
    liveHeld := count16 ((live.map Bank.held).getD 0)
    next := s.nextBatch
    nextCount := count16 ((next.map Bank.count).getD 0)
    nextHeld := count16 ((next.map Bank.held).getD 0)
    lowestMissing := (next.bind Bank.lowestMissing).map count16
    nextPhase := s.nextPhase
    staged := count16 (s.dir.entries.filter fun c => stagedOnNext s c.2).length
    preloaded := count16 (s.dir.entries.filter fun c => stagedOnNext s c.2 && c.2.state = .preloaded).length
    heldPartner := heldPartner s
    isolated := s.trunk.isolated
    duplicate := s.alerts.duplicate }

/-- R55: the DIGEST at the head of the queue is in transmission. -/
def digestSending (s : State) : Bool :=
  s.trunk.transmitting && (s.trunk.queue.head?.map QueuedFrame.tag = some Tag.digest)

/-- R54, R55: a place is free for a frame that does not wait: more are free than producers wait for
(log entry 33). -/
def sparePlace (s : State) : Bool :=
  placesTaken s + s.trunk.waiters.length < Config.transmitPlaces

/-- R55: the DIGEST called for is queued by the first case that fits; it waits for no place. -/
def queueDigest (s : State) : State :=
  let d := Frame.digest (digestNow s)
  if s.listenOnly ∨ digestSending s then s
  else if s.trunk.queue.any fun f => f.tag = .digest then
    { s with trunk := { s.trunk with
        queue := s.trunk.queue.map fun f => if f.tag = .digest then { f with frame := d } else f } }
  else if sparePlace s then enqueueFrame .digest d s
  else s

/-! ### Transmission (R57 to R60, R74) -/

/-- R57: the line goes BUSY under a counting head: the slots passed are subtracted, the count freezes. -/
def freezeCount (s : State) : State :=
  match s.trunk.line, s.trunk.counting, s.trunk.queue with
  | .idle since, some start, h :: q =>
    { s with trunk := { s.trunk with
        counting := none
        queue := { h with slots := h.slots.map fun n => n - slotsPassed since start s.now } :: q } }
  | _, _, _ => { s with trunk := { s.trunk with counting := none } }

/-- R57: the head's count has reached 0 on an IDLE line. -/
def mayTransmit (s : State) : Bool :=
  s.power = .on && s.phase = .run && !s.trunk.transmitting &&
  match s.trunk.line, s.trunk.counting, s.trunk.queue with
  | .idle since, some start, h :: _ =>
    match h.slots with
    | some n => n ≤ slotsPassed since start s.now
    | none => false
  | _, _, _ => false

/-- R73: the transmission of a slot's WANT begins. -/
def wantSending (tag : Tag) (s : State) : State :=
  match tag with
  | .want k =>
    match s.slot k with
    | some w => s.setSlot k (some { w with phase := .sending })
    | none => s
  | _ => s

/-- R57, R60: the transmission of the head begins. -/
def beginTransmit (h : QueuedFrame) (q : List QueuedFrame) (s : State) : State :=
  wantSending h.tag { s with trunk := { s.trunk with
    queue := { h with slots := none } :: q, counting := none, transmitting := true, line := .busy } }

/-- R74: a SENDING slot's transmission has ended, sent or dropped: it waits, or is FREE where R76 has
left it no number. -/
def wantWaits (k : Fin 8) (s : State) : State :=
  match s.slot k with
  | none => s
  | some w => if w.numbers = [] then s.setSlot k none else waitSlot k w s

/-- R74: the WANT of a SENDING slot collided and stays at the head; it is QUEUED again and its frame
follows its ask set. -/
def wantCollided (k : Fin 8) (s : State) : State :=
  match s.slot k with
  | none => s
  | some w =>
    let w := { w with phase := .queued }
    if w.numbers = [] then (withdrawWant k s).setSlot k none
    else rewriteWant k w (s.setSlot k (some w))

/-- R58: a transmission is abandoned. -/
def abandonTransmit (s : State) : State :=
  { s with
    trunk := { s.trunk with transmitting := false, line := .quiet, counting := none }
    counters := { s.counters with collisions := bump s.counters.collisions } }

/-- R59, R74, R164: the producer of a dropped frame is told. -/
def reportDrop (tag : Tag) (s : State) : State :=
  match tag with
  | .want k => wantWaits k s
  | .claim => if s.adopt.holder = .claiming then offer .claim s else s
  | _ => s

/-- R59: a frame is dropped at its twelfth collision. -/
def dropHead (h : QueuedFrame) (q : List QueuedFrame) (s : State) : State :=
  reportDrop h.tag
    { s with
      trunk := { s.trunk with queue := q }
      counters := { s.counters with framesDropped := bump s.counters.framesDropped } }

/-- R58: the frame of a collision stays at the head with its window doubled. -/
def backOff (h : QueuedFrame) (q : List QueuedFrame) (s : State) : State :=
  let h := { h with
    attempts := h.attempts + 1, window := min (2 * h.window) (lastWindow h.frame), slots := none }
  let s := { s with trunk := { s.trunk with queue := h :: q } }
  match h.tag with
  | .want k => wantCollided k s
  | _ => s

/-- R58, R59: a collision of the head. -/
def collided (h : QueuedFrame) (q : List QueuedFrame) (s : State) : State :=
  let s := abandonTransmit s
  if 11 ≤ h.attempts then dropHead h q s else backOff h q s

def countWant (s : State) : State :=
  { s with counters := { s.counters with wantsSent := bump s.counters.wantsSent } }

def countGive (s : State) : State :=
  { s with counters := { s.counters with givesSent := bump s.counters.givesSent } }

/-- R60, R74, R79, R84, R164: the producer of a sent frame is told. -/
def reportSent (h : QueuedFrame) (s : State) : State :=
  match h.tag, h.frame with
  | .want k, _ => wantWaits k (countWant s)
  | .orphan, .want _ _ => countWant s
  | .answer _, _ => countGive s
  | .claim, _ => claimSent s
  | _, _ => s

/-- R51, last column: the station hears its own frame. -/
def ownFrame (f : Frame) (s : State) : State :=
  match f with
  | .opening b _ _ => repairOpen b s
  | .price b _ rs => repairPrice b rs s
  | .flip b _ => hearFlip b s
  | _ => s

/-- R60: a transmission completes. -/
def transmitted (h : QueuedFrame) (q : List QueuedFrame) (s : State) : State :=
  ownFrame h.frame (reportSent h
    { s with trunk := { s.trunk with
        queue := q, transmitting := false, line := .quiet, counting := none } })

/-- R54: the first producer that waits is granted a free place. -/
def grantNext (s : State) : State :=
  match s.trunk.waiters with
  | [] => s
  | p :: ps =>
    if placeFree s then grantPlace p { s with trunk := { s.trunk with waiters := ps } } else s

/-! ### Commands -/

/-- FRAME_DISCARDED (R50): the frame that ends is discarded; three kinds of discard are counted. -/
def execFrameDiscarded (t : Micros) (invalid : Bool) (bytes : List Byte) (s : State) :
    Host.Outcome State Fault Refusal :=
  let s := s.at t
  .next (
    if !receiving s then s
    else
      match judgeReception invalid bytes with
      | .accepted _ _ => s
      | v => if v.counted then countCrcError (setLine .quiet s) else setLine .quiet s)

/-- OPEN_FRAME (R27, R51): the batch log and the repair engine take an OPEN. -/
def execOpenFrame (t : Micros) (src : Byte) (b : Batch) (count : BitVec 16) (rep : Bool) (s : State) :
    Host.Outcome State Fault Refusal :=
  .next (receive t src (.opening b count rep) (fun s => repairOpen b (logOpen b count.toNat s)) s)

/-- PRICE_FRAME (R29, R51): the delivered records go to the batch log in frame order. -/
def execPriceFrame (t : Micros) (src : Byte) (b : Batch) (repair : Bool) (rs : List Record) (s : State) :
    Host.Outcome State Fault Refusal :=
  .next (receive t src (.price b repair rs)
    (fun s => repairPrice b rs (logRecords b (delivered b rs) s)) s)

/-- DIGEST_FRAME (R51, R68, R69, R177). -/
def execDigestFrame (t : Micros) (src : Byte) (d : Digest) (s : State) : Host.Outcome State Fault Refusal :=
  .next (receive t src (.digest d) (takeDigest src d) s)

/-- WANT_FRAME (R51, R77, R80). -/
def execWantFrame (t : Micros) (src : Byte) (b : Batch) (ranges : List (BitVec 16 × BitVec 16)) (s : State) :
    Host.Outcome State Fault Refusal :=
  .next (receive t src (.want b ranges) (fun s => fillAnswers b ranges (hearWant b ranges s)) s)

/-- STOP_FRAME (R30, R51). -/
def execStopFrame (t : Micros) (src : Byte) (b : Batch) (s : State) : Host.Outcome State Fault Refusal :=
  .next (receive t src (.stop b) (logStop b) s)

/-- FLIP_FRAME (R51, R149). -/
def execFlipFrame (t : Micros) (src : Byte) (b : Batch) (echo : Bool) (s : State) :
    Host.Outcome State Fault Refusal :=
  .next (receive t src (.flip b echo) (hearFlip b) s)

/-- CLAIM_FRAME (R51, R177). -/
def execClaimFrame (t : Micros) (src : Byte) (partner : Byte) (s : State) : Host.Outcome State Fault Refusal :=
  .next (receive t src (.claim partner) (fun s => if names partner s then noteTrigger src s else s) s)

/-- YIELD_FRAME (R51, R177, R178). -/
def execYieldFrame (t : Micros) (src : Byte) (partner : Byte) (s : State) : Host.Outcome State Fault Refusal :=
  .next (receive t src (.yield partner) (fun s => if names partner s then yieldHeard src s else s) s)

/-- LINE_IDLE (R48, R57): 40 undriven bit times have passed in QUIET; the head contends. -/
def execLineIdle (t : Micros) (s : State) : Host.Outcome State Fault Refusal :=
  let s := s.at t
  .next (
    if s.power = .on ∧ s.phase ≠ .scan ∧ s.trunk.line = .quiet then contend (setLine (.idle s.now) s)
    else s)

/-- R48, R57: the first driven bit on an IDLE line. -/
def lineDriven (s : State) : State :=
  match s.trunk.line with
  | .idle _ => if s.power = .on ∧ s.phase ≠ .scan then setLine .busy (freezeCount s) else s
  | _ => s

/-- LINE_BUSY (R48, R57): another station drives the IDLE line; the count of the head freezes. -/
def execLineBusy (t : Micros) (s : State) : Host.Outcome State Fault Refusal :=
  .next (lineDriven (s.at t))

/-- TRANSMIT_START (R57): the head's count is 0 on an IDLE line. -/
def execTransmitStart (t : Micros) (s : State) : Host.Outcome State Fault Refusal :=
  let s := s.at t
  .next (
    if mayTransmit s then
      match s.trunk.queue with
      | h :: q => beginTransmit h q s
      | [] => s
    else s)

/-- COLLISION (R58, R59): a mismatch while transmitting. -/
def execCollision (t : Micros) (s : State) : Host.Outcome State Fault Refusal :=
  let s := s.at t
  .next (
    if s.power = .on ∧ s.trunk.transmitting then
      match s.trunk.queue with
      | h :: q => collided h q s
      | [] => s
    else s)

/-- TRANSMISSION_COMPLETE (R60): the last bit is out; the station hears its own frame. -/
def execTransmissionComplete (t : Micros) (s : State) : Host.Outcome State Fault Refusal :=
  let s := s.at t
  .next (
    if s.power = .on ∧ s.trunk.transmitting then
      match s.trunk.queue with
      | h :: q => settle s (transmitted h q s)
      | [] => s
    else s)

/-- TRANSMIT_PLACE_GRANTED (R54): the first producer that waits is granted a place. -/
def execTransmitPlaceGranted (t : Micros) (s : State) : Host.Outcome State Fault Refusal :=
  let s := s.at t
  .next (if s.power = .on then contend (flashSettle (grantNext s)) else s)

/-- DIGEST_TIMER_EXPIRY (R55, R62): a DIGEST is called for and the timer starts again. -/
def execDigestTimerExpiry (t : Micros) (s : State) : Host.Outcome State Fault Refusal :=
  let s := s.at t
  .next (
    if s.power = .on ∧ s.phase = .run ∧ expired s.trunk.digestAt s then
      contend (startDigest (queueDigest s))
    else s)

/-- ISOLATION_TIMER_EXPIRY (R53): the station is isolated. -/
def execIsolationTimerExpiry (t : Micros) (s : State) : Host.Outcome State Fault Refusal :=
  let s := s.at t
  .next (
    if s.power = .on ∧ expired s.trunk.isolationAt s then
      { s with
        trunk := { s.trunk with isolated := true, isolationAt := none }
        alerts := { s.alerts with isolated := true } }
    else s)

end Sys2Proof.Machine
end

