-- ==== Sys2Proof/Machine/Dispatch.lean ====
section
/-! DEFINITION. The dispatch of commands: one arm per constructor of Instr, one meaning each. -/

namespace Sys2Proof.Machine

/-- The effect of a command on everything but the queue. -/
def exec (i : Instr) (s : State) : Host.Outcome State Fault Refusal :=
  match i with
  | .powerOn t straps => Sys2Proof.Machine.execPowerOn t straps s
  | .powerLoss t => Sys2Proof.Machine.execPowerLoss t s
  | .resetNFall t => Sys2Proof.Machine.execResetNFall t s
  | .resetNRise t straps => Sys2Proof.Machine.execResetNRise t straps s
  | .scanEnd t => Sys2Proof.Machine.execScanEnd t s
  | .listenEnd t => Sys2Proof.Machine.execListenEnd t s
  | .transactionEnd t bits bytes => Sys2Proof.Machine.execTransactionEnd t bits bytes s
  | .fetch t length => Sys2Proof.Machine.execFetch t length s
  | .openBatch t => Sys2Proof.Machine.execOpenBatch t s
  | .putRecords t => Sys2Proof.Machine.execPutRecords t s
  | .callFlip t => Sys2Proof.Machine.execCallFlip t s
  | .stopBatch t => Sys2Proof.Machine.execStopBatch t s
  | .readStatus t => Sys2Proof.Machine.execReadStatus t s
  | .readEntry t => Sys2Proof.Machine.execReadEntry t s
  | .readCounters t => Sys2Proof.Machine.execReadCounters t s
  | .writeEnable t => Sys2Proof.Machine.execWriteEnable t s
  | .writeDisable t => Sys2Proof.Machine.execWriteDisable t s
  | .assignPosition t lockN => Sys2Proof.Machine.execAssignPosition t lockN s
  | .clearPosition t lockN => Sys2Proof.Machine.execClearPosition t lockN s
  | .setLock t lockN => Sys2Proof.Machine.execSetLock t lockN s
  | .clearAlert t => Sys2Proof.Machine.execClearAlert t s
  | .restart t straps => Sys2Proof.Machine.execRestart t straps s
  | .unknownCommand t => Sys2Proof.Machine.execUnknownCommand t s
  | .frameDiscarded t invalid bytes => Sys2Proof.Machine.execFrameDiscarded t invalid bytes s
  | .openFrame t src batch count rep => Sys2Proof.Machine.execOpenFrame t src batch count rep s
  | .priceFrame t src batch repair records => Sys2Proof.Machine.execPriceFrame t src batch repair records s
  | .digestFrame t src digest => Sys2Proof.Machine.execDigestFrame t src digest s
  | .wantFrame t src batch ranges => Sys2Proof.Machine.execWantFrame t src batch ranges s
  | .stopFrame t src batch => Sys2Proof.Machine.execStopFrame t src batch s
  | .flipFrame t src batch echo => Sys2Proof.Machine.execFlipFrame t src batch echo s
  | .claimFrame t src partner => Sys2Proof.Machine.execClaimFrame t src partner s
  | .yieldFrame t src partner => Sys2Proof.Machine.execYieldFrame t src partner s
  | .lineIdle t => Sys2Proof.Machine.execLineIdle t s
  | .transmitStart t => Sys2Proof.Machine.execTransmitStart t s
  | .collision t => Sys2Proof.Machine.execCollision t s
  | .transmissionComplete t => Sys2Proof.Machine.execTransmissionComplete t s
  | .transmitPlaceGranted t => Sys2Proof.Machine.execTransmitPlaceGranted t s
  | .digestTimerExpiry t => Sys2Proof.Machine.execDigestTimerExpiry t s
  | .isolationTimerExpiry t => Sys2Proof.Machine.execIsolationTimerExpiry t s
  | .wantDelayExpiry t slot => Sys2Proof.Machine.execWantDelayExpiry t slot s
  | .wantWaitExpiry t slot => Sys2Proof.Machine.execWantWaitExpiry t slot s
  | .trailingGapTimerExpiry t => Sys2Proof.Machine.execTrailingGapTimerExpiry t s
  | .answerTimerExpiry t batch => Sys2Proof.Machine.execAnswerTimerExpiry t batch s
  | .flashRequestDone t => Sys2Proof.Machine.execFlashRequestDone t s
  | .eraseSuspend t => Sys2Proof.Machine.execEraseSuspend t s
  | .sectorEraseComplete t => Sys2Proof.Machine.execSectorEraseComplete t s
  | .directoryEraseComplete t => Sys2Proof.Machine.execDirectoryEraseComplete t s
  | .provingSessionEnd t engine ending read => Sys2Proof.Machine.execProvingSessionEnd t engine ending read s
  | .censusSessionEnd t engine ending answer => Sys2Proof.Machine.execCensusSessionEnd t engine ending answer s
  | .revisitSessionEnd t engine ending answer => Sys2Proof.Machine.execRevisitSessionEnd t engine ending answer s
  | .pollSessionEnd t engine ending answer => Sys2Proof.Machine.execPollSessionEnd t engine ending answer s
  | .swapSessionEnd t engine ending => Sys2Proof.Machine.execSwapSessionEnd t engine ending s
  | .preloadSessionEnd t engine ending => Sys2Proof.Machine.execPreloadSessionEnd t engine ending s
  | .assignSessionEnd t engine ending => Sys2Proof.Machine.execAssignSessionEnd t engine ending s
  | .refusalCheckEnd t engine ending answer => Sys2Proof.Machine.execRefusalCheckEnd t engine ending answer s
  | .stretchTimeout t engine => Sys2Proof.Machine.execStretchTimeout t engine s
  | .railResetPulseEnd t engine => Sys2Proof.Machine.execRailResetPulseEnd t engine s
  | .railPowerLost t rail => Sys2Proof.Machine.execRailPowerLost t rail s
  | .railPowerReturn t rail => Sys2Proof.Machine.execRailPowerReturn t rail s
  | .deadRailReprove t rail => Sys2Proof.Machine.execDeadRailReprove t rail s
  | .pollDue t rail pos => Sys2Proof.Machine.execPollDue t rail pos s
  | .revisitDue t rail pos => Sys2Proof.Machine.execRevisitDue t rail pos s
  | .identityDue t rail kind pos => Sys2Proof.Machine.execIdentityDue t rail kind pos s
  | .identityDueTimeout t rail kind pos => Sys2Proof.Machine.execIdentityDueTimeout t rail kind pos s
  | .refusedJobRetry t rail kind pos => Sys2Proof.Machine.execRefusedJobRetry t rail kind pos s
  | .holdTimerExpiry t => Sys2Proof.Machine.execHoldTimerExpiry t s
  | .gapTimerExpiry t => Sys2Proof.Machine.execGapTimerExpiry t s
  | .callTimerExpiry t => Sys2Proof.Machine.execCallTimerExpiry t s
  | .callPeriodExpiry t => Sys2Proof.Machine.execCallPeriodExpiry t s
  | .quietTimerExpiry t => Sys2Proof.Machine.execQuietTimerExpiry t s
  | .echoPeriodExpiry t => Sys2Proof.Machine.execEchoPeriodExpiry t s
  | .partnerSilenceTimerExpiry t => Sys2Proof.Machine.execPartnerSilenceTimerExpiry t s
  | .claimGuardExpiry t asserted => Sys2Proof.Machine.execClaimGuardExpiry t asserted s
  | .holdLineAsserted t port => Sys2Proof.Machine.execHoldLineAsserted t port s
  | .waitReleaseTimeout t => Sys2Proof.Machine.execWaitReleaseTimeout t s
  | .holderSilence t => Sys2Proof.Machine.execHolderSilence t s
  | .takingComplete t port => Sys2Proof.Machine.execTakingComplete t port s
  | .holdLineReadbackReleased t port => Sys2Proof.Machine.execHoldLineReadbackReleased t port s
  | .lineBusy t => Sys2Proof.Machine.execLineBusy t s
  | .fselNFall t => Sys2Proof.Machine.execFselNFall t s
  | .holdLineReadbackAsserted t port => Sys2Proof.Machine.execHoldLineReadbackAsserted t port s

end Sys2Proof.Machine
end

