-- ==== Sys2Proof/Machine/FeedPins.lean ====
section
/-! DEFINITION. The pins of the feed port bit by bit: what the port makes of the edges of FSEL_N and FSCK,
the commands a transaction comes to, and the bit on FDO (file 09, R180, R181, R189). -/

namespace Sys2Proof.Machine

/-- R180: what the feed unit does at the pins: it moves FSEL_N, or FSCK with FDI at the level `fdi`. -/
inductive PinEvent where
  | selectFall | selectRise
  | clockRise (fdi : Bool)
  | clockFall
  deriving DecidableEq, Repr

/-- R180: the port's count of a transaction: the bits sampled, in their order, and the falling edges of
FSCK. -/
structure PortClock where
  selected : Bool
  sampled : List Bool
  falls : Nat
  deriving DecidableEq, Repr

/-- R180: the port while no transaction runs. -/
def PortClock.idle : PortClock := ⟨false, [], 0⟩

/-- R180: FDI is sampled on each rising edge of FSCK and FDO changes on each falling one. The port counts
afresh from each fall of FSEL_N, and ignores the edges of FSCK while FSEL_N is high. -/
def PortClock.after (c : PortClock) : PinEvent → PortClock
  | .selectFall => ⟨true, [], 0⟩
  | .selectRise => { c with selected := false }
  | .clockRise fdi => if c.selected then { c with sampled := c.sampled ++ [fdi] } else c
  | .clockFall => if c.selected then { c with falls := c.falls + 1 } else c

/-- R180: the whole bytes sampled, most significant bit first; the port keeps 257 (R182). -/
def PortClock.bytes (c : PortClock) : List Byte :=
  bytesOfBits (min 257 (c.sampled.length / 8)) c.sampled

/-- R180, R181, R189: the command that an event at the pins comes to, if any: the fall of FSEL_N, the last
bit of a FETCH's length byte, and the rise of FSEL_N. -/
def PortClock.command (t : Micros) (c : PortClock) : PinEvent → Option Instr
  | .selectFall => some (.fselNFall t)
  | .selectRise => if c.selected then some (.transactionEnd t c.sampled.length c.bytes) else none
  | .clockRise fdi =>
    let c' := c.after (.clockRise fdi)
    if c.selected ∧ c'.sampled.length = 16 ∧ byteAt c'.bytes 0 = fetchCode then
      some (.fetch t (byteAt c'.bytes 1))
    else none
  | .clockFall => none

/-- The port after several events. -/
def PortClock.run (c : PortClock) (es : List PinEvent) : PortClock :=
  es.foldl PortClock.after c

/-- R180: the events that clock bits in: a rising edge of FSCK and a falling one for each. -/
def clocked (bits : List Bool) : List PinEvent :=
  bits.flatMap fun b => [.clockRise b, .clockFall]

/-- R180: the level of FDO after `falls` falling edges of FSCK, none where it is high impedance: the first
bit of a byte from the fall of FSEL_N, or from the falling edge that ends the byte before it, the most
significant first. -/
def State.fdoBit (s : State) (falls : Nat) : Option Bool :=
  (s.fdo (falls / 8)).map fun b => b.getLsbD (7 - falls % 8)

end Sys2Proof.Machine
end

