-- ==== Sys2Proof/Machine/Label.lean ====
section
/-! DEFINITION. The labels and terminators as far as the station depends on them (file 06, R113 to
R118, R119 for the class a session then ends in). They are outside the station and no part of State:
their answers reach it as the operands of the session commands (log entry 25). -/

namespace Sys2Proof.Machine

/-! ### The label (R115 to R117) -/

/-- R115: what a label holds; the pending page is absent where it is not valid. -/
structure Label where
  serial : BitVec 32
  article : Option Nat
  shown : Option (List Byte)
  page : Option (List Byte)
  state : LabelState
deriving DecidableEq, Repr

/-- R115: rail power rises: the pending page is invalid and the label redraws its shown page. -/
def Label.powerRise (l : Label) : Label :=
  { l with page := none, state := .refreshing }

/-- R115: rail power falls: the pending page is lost. -/
def Label.powerFall (l : Label) : Label :=
  { l with page := none }

/-- R115, R117: a refresh ends. -/
def Label.refreshed (l : Label) : Label :=
  { l with state := .showing }

/-- The batch of a page. -/
def pageBatch (page : List Byte) : Batch := BitVec.ofNat 16 (field page 1 2)

/-- The page check of a page. -/
def pageCheck (page : List Byte) : BitVec 16 := BitVec.ofNat 16 (field page 30 2)

/-- R116: the sum of bytes 0 to 29 agrees with the page check. -/
def pageAgrees (page : List Byte) : Bool :=
  page.length = 32 && byteSum (page.take 30) = field page 30 2

/-- R116: what STATUS reads. -/
def Label.status (l : Label) : StatusAnswer :=
  { state := l.state, shown := l.shown.map pageBatch, page := l.page.map fun p => (pageBatch p, pageCheck p) }

/-- R116: what IDENT reads. -/
def Label.ident (l : Label) : IdentAnswer :=
  { serial := l.serial
    article := match l.article with
      | some a => articleBytes a
      | none => noArticleBytes }

/-- R116: the article an ASSIGN carries is one the label takes: all digits decimal, or all bytes 0xFF. -/
def assignAccepted (bs : List Byte) : Bool :=
  (articleOf bs).isSome || bs = noArticleBytes

/-- R116, R117: the label acknowledges the opcode of a command in its present state. -/
def Label.takesOpcode (l : Label) : LabelCommand → Bool
  | .status => true
  | .swap => l.state = .showing && l.page.isSome
  | _ => l.state = .showing

/-- R116: the data a command writes is taken. -/
def LabelCommand.agrees : LabelCommand → Bool
  | .writePending page => pageAgrees page
  | .assign a => assignAccepted a
  | _ => true

/-- R116, R117: what a session that ends DONE leaves of the label. -/
def Label.after (l : Label) : LabelCommand → Label
  | .status => l
  | .ident => l
  | .writePending page => { l with page := some page }
  | .swap => { l with shown := l.page, page := none, state := .refreshing }
  | .assign a => { l with article := articleOf a }

/-- R116: what a session that ends DONE has read. -/
def Label.answer (l : Label) : LabelCommand → Answer
  | .status => .status l.status
  | .ident => .ident l.ident
  | _ => .nothing

/-- R113, R116, R117, R119: how a session with a label ends, what it reads and what it leaves. -/
def Label.session (l : Label) (c : LabelCommand) : Label × SessionEnd × Answer :=
  if !l.takesOpcode c then (l, .opcodeRefused, .nothing)
  else if !c.agrees then (l, .checkRefused, .nothing)
  else (l.after c, .done, l.answer c)

/-! ### The terminator (R118) -/

/-- R118: what a terminator holds. -/
structure Terminator where
  loop : Bool
  pattern : List Byte
deriving DecidableEq, Repr

/-- A command of a proving (R123). -/
inductive TerminatorCommand where
  | loopOn
  | loopOff
  | patternWrite (bytes : List Byte)
  | patternRead
deriving DecidableEq, Repr

/-- R118: rail power rises. -/
def Terminator.powerRise : Terminator :=
  { loop := false, pattern := List.replicate 64 0 }

/-- R118: the terminator acknowledges an opcode by its loop mode. -/
def Terminator.takesOpcode (x : Terminator) : TerminatorCommand → Bool
  | .loopOn => true
  | .loopOff => true
  | .patternWrite _ => x.loop
  | .patternRead => x.loop

/-- R118: what a session that ends DONE leaves of the terminator. -/
def Terminator.after (x : Terminator) : TerminatorCommand → Terminator
  | .loopOn => { x with loop := true }
  | .loopOff => { x with loop := false }
  | .patternWrite bytes => { x with pattern := bytes }
  | .patternRead => x

/-- R118: the bytes a terminator sends. -/
def Terminator.reads (x : Terminator) : TerminatorCommand → List Byte
  | .patternRead => x.pattern
  | _ => []

/-- R118, R119: how a session with a terminator ends, what it reads and what it leaves; the wiring is
taken as perfect. -/
def Terminator.session (x : Terminator) (c : TerminatorCommand) : Terminator × SessionEnd × List Byte :=
  if x.takesOpcode c then (x.after c, .done, x.reads c) else (x, .opcodeRefused, [])

/-! ### The parts of a session (R65, R112, R113, R119) -/

/-- R65: the address byte of a label position, and of the terminator. -/
def labelAddress (p : Fin 64) : Byte := BitVec.ofNat 8 p.val
def terminatorAddress : Byte := 0x80

/-- R65: the opcodes of labels. -/
def labelOpcode : LabelCommand → Byte
  | .status => 0x01 | .writePending _ => 0x02 | .swap => 0x03 | .ident => 0x04 | .assign _ => 0x05

/-- R65: the opcodes of terminators. -/
def terminatorOpcode : TerminatorCommand → Byte
  | .loopOn => 0x41 | .loopOff => 0x42 | .patternWrite _ => 0x43 | .patternRead => 0x44

/-- R113: which side sends a byte; the other side has its acknowledge slot. -/
inductive Sender where
  | station | target
deriving DecidableEq, Repr

/-- R113: a byte of a session and whether it was acknowledged. -/
structure SessionByte where
  sender : Sender
  byte : Byte
  acknowledged : Bool
deriving DecidableEq, Repr

/-- R113: a byte on the data line, most significant bit first, then its acknowledge slot: low where it
is acknowledged. -/
def SessionByte.line (b : SessionByte) : List Bool :=
  bitsOf [b.byte] ++ [!b.acknowledged]

/-- R113: the parts of a session in their order. -/
inductive SessionPart where
  /-- The data line falls while the clock line is high. -/
  | opening
  | byte (b : SessionByte)
  /-- The data line rises while the clock line is high. -/
  | closing
deriving DecidableEq, Repr

/-- R113: the bit times of a part. -/
def SessionPart.bits : SessionPart → Nat
  | .opening => 1
  | .byte b => b.line.length
  | .closing => 1

/-- R113: the bytes the station sends: address, opcode and the data of a write. -/
structure SessionCommand where
  address : Byte
  opcode : Byte
  writes : List Byte
deriving DecidableEq, Repr

/-- R113: the bytes the station sends, byte `n` acknowledged by the target where `acks n`; after one
that is not, the station sends no more. -/
def stationBytes (acks : Nat → Bool) : Nat → List Byte → List SessionByte
  | _, [] => []
  | n, b :: bs => ⟨.station, b, acks n⟩ :: (if acks n then stationBytes acks (n + 1) bs else [])

/-- R113: the bytes the target sends; the station acknowledges every one but the last. -/
def targetBytes : List Byte → List SessionByte
  | [] => []
  | [b] => [⟨.target, b, false⟩]
  | b :: bs => ⟨.target, b, true⟩ :: targetBytes bs

/-- R119: every byte the station sent was acknowledged. -/
def allAcknowledged (bs : List SessionByte) : Bool :=
  bs.all fun b => b.sender = .target || b.acknowledged

/-- R113: the bytes of a session whose target reads the command by `acks` and answers with `reads`. -/
def sessionBytes (c : SessionCommand) (acks : Nat → Bool) (reads : List Byte) : List SessionByte :=
  let sent := stationBytes acks 0 (c.address :: c.opcode :: c.writes)
  if allAcknowledged sent then sent ++ targetBytes reads else sent

/-- R113: the whole session. -/
def sessionParts (bs : List SessionByte) : List SessionPart :=
  .opening :: bs.map .byte ++ [.closing]

/-- R113: the bit times a session lasts, less any stretch. -/
def sessionBits (bs : List SessionByte) : Nat :=
  ((sessionParts bs).map SessionPart.bits).sum

/-- R119: how a session that ran its course ends: by the place of the byte that the target did not
acknowledge. -/
def sessionEnding (bs : List SessionByte) : SessionEnd :=
  match bs.findIdx? fun b => b.sender = .station && !b.acknowledged with
  | none => .done
  | some 0 => .addressRefused
  | some 1 => .opcodeRefused
  | some _ => .checkRefused

/-- R112: the bit time of a session on a rail; a proving always runs at the faster one. -/
def sessionBitTime (state : RailState) (kind : SessionKind) : Micros :=
  if state = .degraded ∧ kind ≠ .job .prove then Config.slowBitTime else Config.railBitTime

/-- R112, R113: the time of a session on a rail, less any stretch. -/
def sessionTime (state : RailState) (kind : SessionKind) (bs : List SessionByte) : Micros :=
  sessionBits bs * sessionBitTime state kind

/-- R65: the bytes a label sends for STATUS. -/
def statusBytes (a : StatusAnswer) : List Byte :=
  be1 (match a.state with | .showing => 0 | .refreshing => 1)
    ++ [flagByte [a.shown.isSome, a.page.isSome]]
    ++ be2 ((a.shown.map BitVec.toNat).getD 0)
    ++ be2 ((a.page.map fun p => p.1.toNat).getD 0)
    ++ be2 ((a.page.map fun p => p.2.toNat).getD 0)

/-- R65: the bytes a label sends for IDENT. -/
def identBytes (a : IdentAnswer) : List Byte :=
  be4 a.serial.toNat ++ a.article

/-! ### What a target acknowledges and sends (R113, R116 to R118) -/

/-- R113, R116, R117: the bytes the station sends for a label command. -/
def LabelCommand.session (p : Fin 64) (c : LabelCommand) : SessionCommand :=
  { address := labelAddress p
    opcode := labelOpcode c
    writes := match c with
      | .writePending page => page
      | .assign a => a
      | _ => [] }

/-- R113, R116: byte `n` of a session whose station sends `len` bytes of data is acknowledged by a
target that is there: the opcode where the target takes it, the last data byte where the data agrees. -/
def targetAcks (takes agrees : Bool) (len n : Nat) : Bool :=
  if n = 1 then takes else if 1 < n ∧ n = len + 1 then agrees else true

/-- R113, R116: byte `n` of a label session is acknowledged at the position; no label, no byte. -/
def labelAcks (l : Option Label) (p : Fin 64) (c : LabelCommand) (n : Nat) : Bool :=
  match l with
  | none => false
  | some l => targetAcks (l.takesOpcode c) c.agrees (c.session p).writes.length n

/-- R116: the bytes a label sends. -/
def Label.reads (l : Label) : LabelCommand → List Byte
  | .status => statusBytes l.status
  | .ident => identBytes l.ident
  | _ => []

/-- R113: the bytes of a label session at a position. -/
def labelBytes (l : Option Label) (p : Fin 64) (c : LabelCommand) : List SessionByte :=
  sessionBytes (c.session p) (labelAcks l p c) ((l.map fun l => l.reads c).getD [])

/-- R113, R118: the bytes the station sends for a terminator command. -/
def TerminatorCommand.session (c : TerminatorCommand) : SessionCommand :=
  { address := terminatorAddress
    opcode := terminatorOpcode c
    writes := match c with
      | .patternWrite bs => bs
      | _ => [] }

/-- R113, R118: byte `n` of a session is acknowledged by the terminator, if the rail has one. -/
def terminatorAcks (x : Option Terminator) (c : TerminatorCommand) (n : Nat) : Bool :=
  match x with
  | none => false
  | some x => targetAcks (x.takesOpcode c) true c.session.writes.length n

/-- R113: the bytes of a session with the terminator. -/
def terminatorBytes (x : Option Terminator) (c : TerminatorCommand) : List SessionByte :=
  sessionBytes c.session (terminatorAcks x c) ((x.map fun x => x.reads c).getD [])

/-! ### What the engines send (R113, R123) -/

/-- R123: the 64 bytes of a block. -/
def patternBlock (block : Nat) : List Byte := bytesOfBits 64 (blockBits block)

/-- R123: the session a proving opens next. -/
def provingCommand (v : Proving) : TerminatorCommand :=
  if v.step = 0 then .loopOn
  else if 9 ≤ v.step then .loopOff
  else if v.step % 2 = 1 then .patternWrite (patternBlock ((v.step - 1) / 2))
  else .patternRead

/-- R113, R123: the bytes the station sends in the session that engine `k` carries, as far as the target
acknowledges them; those of a label session are fixed when it opens. -/
def engineSends (s : State) (k : Fin 4) : Option SessionCommand :=
  match (s.engine k).activity with
  | .session r (.job .prove) _ _ => (s.rail r).proving.map fun v => (provingCommand v).session
  | .session _ _ p _ => (s.engine k).command.map (LabelCommand.session p)
  | _ => none

end Sys2Proof.Machine
end

