-- ==== Sys2Proof/Safety.lean ====
section
/-! DEFINITION. What counts as a sound state, and the words the statements share: the canonical form of
the stored tables, the bounds of the queues and counters, the roles of the banks, and the circumstances
in which a command is the one that acts. -/

namespace Sys2Proof.Machine

open Sys2Proof.Config

/-! ### Sound states -/

/-- The bank flash is in canonical form: addresses strictly rising, no listed byte erased. -/
abbrev Memory.wf (m : List Host.Cell) : Prop := Sparse.wf 0xFF#8 m = true

/-- Every sparse table of the state is in canonical form. -/
def State.canonical (s : State) : Prop :=
  Memory.wf s.mem ∧ Sparse.wf .erased s.dirFlash = true ∧ Sparse.wf .erased s.lockFlash = true
    ∧ Sparse.wf Entry.vacant s.dir.entries = true ∧ Sparse.wf .erased s.dir.places = true
    ∧ Sparse.wf none s.trunk.sources = true

/-- The numbers of a receipt map rise strictly from `low` and none is above `top`. -/
def marksWithin (top : Nat) : Nat → Table Mark → Bool
  | _, [] => true
  | low, (n, _) :: ms => low ≤ n && n ≤ top && marksWithin top (n + 1) ms

/-- R26, R37, R42: SCAN is over, bank `i` is the NEXT or the LIVE bank and `n` one of its numbers 1..T. -/
def State.numberOf (s : State) (i : BankId) (n : Nat) : Prop :=
  s.phase ≠ .scan ∧ ((s.bank i).role = .next ∨ (s.bank i).role = .live) ∧ 1 ≤ n ∧ n ≤ (s.bank i).count

/-- R21, R26, R37, R32: the receipt map of each bank rises within 1..T, its dirty sectors are listed in
ascending order, and the records of the hold queue and those waiting for a place of the request queue are of
such numbers. -/
def State.receiptsSound (s : State) : Prop :=
  (∀ i, marksWithin (s.bank i).count 1 (s.bank i).marks = true ∧ (s.bank i).dirty.Pairwise (· < ·))
    ∧ (∀ k ∈ s.holdQueue, s.numberOf k.bank k.seq)
    ∧ (∀ i b n r, FlashOp.record i b n r ∈ s.flash.waiting → s.numberOf i n)

/-- R183, R188: the command buffer and the result queue keep their four places. -/
def Feed.bounded (f : Feed) : Prop :=
  f.buffer.length ≤ 4 ∧ f.results.length ≤ 4

/-- R208: no counter is above 65,535. -/
def Counters.bounded (c : Counters) : Prop :=
  c.framesReceived ≤ 65535 ∧ c.crcErrors ≤ 65535 ∧ c.collisions ≤ 65535 ∧ c.framesDropped ≤ 65535
    ∧ c.wantsSent ≤ 65535 ∧ c.wantsSuppressed ≤ 65535 ∧ c.givesSent ≤ 65535 ∧ c.answersTrimmed ≤ 65535
    ∧ c.holdDrops ≤ 65535 ∧ c.preloadsDone ≤ 65535 ∧ c.swapsDone ≤ 65535 ∧ c.labelFaults ≤ 65535
    ∧ c.callsIgnored ≤ 65535

/-- R33, R37, R41, R54: the flash request queue, the hold queue, the unstored list and the transmit
queue with its granted places keep their bounds. -/
def State.bounded (s : State) : Prop :=
  s.flash.queue.length ≤ 32 ∧ s.holdQueue.length ≤ 64 ∧ s.unstored.length ≤ 16 ∧ placesTaken s ≤ 16

/-- R20: a bank in role NEXT or LIVE carries a batch, at most one is in each of these roles, and the
NEXT batch is newer than the LIVE one. -/
def State.rolesSound (s : State) : Prop :=
  (∀ i, (s.bank i).role = .next ∨ (s.bank i).role = .live → (s.bank i).batch.isSome = true)
    ∧ (s.bankA.role = s.bankB.role → s.bankA.role ≠ .next ∧ s.bankA.role ≠ .live)
    ∧ (∀ i, (s.bank i).role = .next → (s.bank i.other).role = .live →
        newer ((s.bank i).batch.getD 0) ((s.bank i.other).batch.getD 0) = true)

/-- What the work of the station keeps true between commands: no slot is above 511; with no walk pass
running no entry waits for one (R98); a POLL is on a list only for a SWAPPING entry (R96, R128, R141);
YIELDING lasts only while its condition does not hold (R175); no census of a cross rail is open with every
CENSUS job of it delivered (R170); and in SCAN every port is disabled with no
POLL listed, every engine idle, and neither side of the adoption unit at work (R162, R167, R177, R204). -/
def State.workSound (s : State) : Prop :=
  (∀ c ∈ s.dir.entries, c.1 < 512)
    ∧ (s.dir.walk = none → s.slotsWhere Entry.restage = [])
    ∧ (∀ r : Fin 8, ∀ j ∈ (s.rail r).work, j.kind = .poll → (s.entry (slotOf r j.pos)).state = .swapping)
    ∧ (s.adopt.holder = .yielding → yieldCondition s = false)
    ∧ (∀ r : Fin 8, isCross r = true → (s.rail r).censusOpen = true → (s.rail r).censusDelivered = false)
    ∧ (s.phase = .scan →
        (∀ r : Fin 8, (s.rail r).enabled = false ∧ ∀ j ∈ (s.rail r).work, j.kind ≠ .poll)
        ∧ (∀ k : Fin 4, (s.engine k).activity = .idle) ∧ s.adopt.holder = .watching
        ∧ s.adopt.silenceAt = none ∧ s.adopt.waitUntil = none ∧ ∀ k : Fin 4, s.adopt.home[k] = .undecided)

/-! ### Flash operations cut off (R42, R111) -/

/-- The byte that the program in service writes at an address of the bank flash. -/
def State.programmingByte (s : State) (a : Nat) : Option Byte :=
  match (inService s).bind opBytes with
  | some (a0, bs) => if a0 ≤ a then bs[a - a0]? else none
  | none => none

/-- The erase in flight or suspended is of the bank sector that holds an address. -/
def State.erasingByte (s : State) (a : Nat) : Bool :=
  match s.flash.erase with
  | some ⟨.sector i n, _⟩ => inSector i n a
  | _ => false

/-- R42, R111: the flash of `u` is that of `s` with its program and erase cut off. Of the bank flash a
program clears only bits it would clear and an erase sets only bits of its sector. Of the directory
sectors only the place being programmed can be lost; an erase leaves some entries places damaged or
erased, and no lock place good. -/
def State.cutInto (s u : State) : Prop :=
  (∀ a, (flashByte s.mem a &&& (s.programmingByte a).getD 0xFF) ||| flashByte u.mem a = flashByte u.mem a)
    ∧ (∀ a, s.erasingByte a = false → flashByte u.mem a ||| flashByte s.mem a = flashByte s.mem a)
    ∧ (∀ i, let old := Sparse.get PlaceContent.erased s.dirFlash i
        let new := Sparse.get PlaceContent.erased u.dirFlash i
        new = old ∨ (new = .damaged ∧ ∃ a rewrite, inService s = some (.place i a rewrite))
          ∨ ((new = .damaged ∨ new = .erased) ∧ s.flash.erase.map Erase.target = some .entries))
    ∧ (∀ i, let old := Sparse.get LockContent.erased s.lockFlash i
        let new := Sparse.get LockContent.erased u.lockFlash i
        if s.flash.erase.map Erase.target = some .lock then new = .damaged ∨ new = .erased
        else new = old ∨ (new = .damaged ∧ ∃ m, inService s = some (.lockPlace i m)))

/-! ### What SCAN reads (R43, R44, R91, R111) -/

/-- R91, R111: the directory as the start of SCAN loads it from the directory sectors: the home entry of a
place with an article is CURRENT with it, every other entry VACANT; a place that does not read erased is
WRITTEN; the stored mode is that of the last lock place with one, OPEN where there is none; the lock places
that do not read erased are used; nothing else is under way. -/
def State.loadedFromFlash (u : State) (sessionLock : Bool) : Prop :=
  (∀ i, u.entry i =
      match Sparse.get PlaceContent.erased u.dirFlash i with
      | .article a => if i < 256 then { Entry.vacant with article := some a, state := .current } else Entry.vacant
      | _ => Entry.vacant)
    ∧ (∀ i, Sparse.get PlaceState.erased u.dir.places i
        = if Sparse.get PlaceContent.erased u.dirFlash i = .erased then .erased else .written)
    ∧ (∀ p m, Sparse.get LockContent.erased u.lockFlash p = .mode m →
        (∀ q m', p < q → Sparse.get LockContent.erased u.lockFlash q ≠ .mode m') → u.dir.storedMode = m)
    ∧ ((∀ p m, Sparse.get LockContent.erased u.lockFlash p ≠ .mode m) → u.dir.storedMode = .open)
    ∧ u.dir = { Directory.reset sessionLock with
        entries := u.dir.entries, places := u.dir.places, storedMode := u.dir.storedMode
        lockUsed := u.lockFlash.length }

/-- R43, R65: count place `k` of a header slot. -/
def headerCount (h : List Byte) (k : Nat) : Nat :=
  field h (5 + 2 * k) 2

/-- R43, step 1: batch, first count place and header check agree, and the count is one (log entry 20). -/
def headerAgrees (h : List Byte) : Prop :=
  field h 2 2 = ([byteAt h 0, byteAt h 1, byteAt h 5, byteAt h 6].map BitVec.toNat).sum
    ∧ 1 ≤ headerCount h 0 ∧ headerCount h 0 ≤ 32767

/-- R43, step 2: the header is valid and its mark claims a role. -/
def headerClaims (h : List Byte) (r : Role) : Prop :=
  headerAgrees h ∧ match r with
    | .next => byteAt h 4 = 0xFF
    | .retired => byteAt h 4 = 0x00
    | .live => byteAt h 4 ≠ 0xFF ∧ byteAt h 4 ≠ 0x00
    | .none => False

/-- R43: the batch of a header. -/
def headerBatch (h : List Byte) : Batch :=
  BitVec.ofNat 16 (field h 0 2)

/-- R43, steps 4 and 5: of two banks that claim one role, bank `i` gives way to the other: its batch is the
older one, or neither is newer and it is bank B. -/
def givesWay (m : List Host.Cell) (i : BankId) : Prop :=
  let mine := headerBatch (readSlot m i 0)
  let its := headerBatch (readSlot m i.other 0)
  newer its mine = true ∨ (i = .b ∧ newer mine its = false)

/-- R43: bank `i` has the role the scan gives it by the two header slots. -/
def Bank.roleScanned (k : Bank) (m : List Host.Cell) (i : BankId) : Prop :=
  let mine := readSlot m i 0
  let its := readSlot m i.other 0
  (¬headerAgrees mine → k.role = .none)
    ∧ (headerClaims mine .retired → k.role = .retired)
    ∧ (headerClaims mine .live →
        (headerClaims its .live ∧ givesWay m i → k.role = .retired)
          ∧ (¬(headerClaims its .live ∧ givesWay m i) → k.role = .live))
    ∧ (headerClaims mine .next →
        let stale := headerClaims its .live ∧ newer (headerBatch mine) (headerBatch its) = false
        (stale ∨ (headerClaims its .next ∧ givesWay m i) → k.role = .retired)
          ∧ (¬(stale ∨ (headerClaims its .next ∧ givesWay m i)) → k.role = .next))

/-- R44: every byte of a slot reads erased. -/
def slotErased (m : List Host.Cell) (i : BankId) (n : Nat) : Prop :=
  ∀ b ∈ readSlot m i n, b = 0xFF

/-- R44: slot `n` of 1..32,767 holds a good record of batch `b`. -/
def slotGood (m : List Host.Cell) (i : BankId) (b : Batch) (n : Nat) : Prop :=
  let r := readSlot m i n
  1 ≤ n ∧ n ≤ 32767 ∧ recCheckAgrees r = true ∧ recBatch r = b ∧ recSeq r = n

/-- R44: slot `n` of 1..32,767 is damaged. -/
def slotDamaged (m : List Host.Cell) (i : BankId) (b : Batch) (n : Nat) : Prop :=
  1 ≤ n ∧ n ≤ 32767 ∧ ¬slotErased m i n ∧ ¬slotGood m i b n

/-- R43: the record count that the rising row of count places gives ends at place `k`. -/
def countRowEnds (h : List Byte) (k : Nat) : Prop :=
  k < 12 ∧ (∀ j, j ≤ k → headerCount h j ≤ 32767 ∧ headerCount h (j - 1) ≤ headerCount h j)
    ∧ (k = 11 ∨ headerCount h (k + 1) < headerCount h k ∨ 32767 < headerCount h (k + 1))

/-- R44: bank `i` in role NEXT or LIVE is as its slots are sorted. -/
def Bank.slotsScanned (k : Bank) (m : List Host.Cell) (i : BankId) : Prop :=
  let b := headerBatch (readSlot m i 0)
  let good := slotGood m i b
  let damaged := slotDamaged m i b
  (∀ n, (good n → k.mark n = some .stored) ∧ (¬good n → k.mark n = none))
    ∧ (∀ n, n ∈ k.spoiled ↔ damaged n ∧ ∃ g, good g ∧ sectorOf g = sectorOf n)
    ∧ (∀ x, x ∈ k.eraseList ↔ (∃ n, damaged n ∧ sectorOf n = x) ∧ ∀ g, good g → sectorOf g ≠ x)
    ∧ k.eraseList.Pairwise (· < ·)
    ∧ (∀ x, x ∈ k.dirty ↔ ∃ n, n ≤ 32767 ∧ sectorOf n = x ∧ ¬slotErased m i n)
    ∧ (∀ p, countRowEnds (readSlot m i 0) p →
        headerCount (readSlot m i 0) p ≤ k.count ∧ (∀ n, good n → n ≤ k.count)
          ∧ (k.count = headerCount (readSlot m i 0) p ∨ good k.count))

/-- R43, R44: bank `i` is as the scan of the bank flash leaves it. -/
def Bank.bankScanned (k : Bank) (m : List Host.Cell) (i : BankId) : Prop :=
  k.roleScanned m i
    ∧ (k.role = .next ∨ k.role = .live → k.slotsScanned m i)
    ∧ (k.role = .retired ∨ k.role = .none →
        k.eraseList = List.range 256 ∧ k.dirty = List.range 256 ∧ k.marks = [])
    ∧ (k.role = .retired → ∀ p, countRowEnds (readSlot m i 0) p → k.count = headerCount (readSlot m i 0) p)
    ∧ (k.role ≠ .none → k.batch = some (headerBatch (readSlot m i 0)) ∧ k.header = some .written)
    ∧ (k.role = .none → k.batch = none ∧ k.header = none)
    ∧ k.duplicates = 0 ∧ k.beyond = 0

/-! ### Circumstances of the statements -/

/-- The power is on and the station is in RUN. -/
def State.inRun (s : State) : Prop :=
  s.power = .on ∧ s.phase = .run

/-- R167, R203, R212: ALERT_N and every hold line are released, no rail port is driven, FDO is high impedance
and the trunk is undriven. -/
def State.releasesOutputs (s : State) : Prop :=
  s.alertLow = false ∧ (∀ k : Fin 4, s.holdDriven k = false) ∧ (∀ r : Fin 8, s.portDrives r = false)
    ∧ (∀ n, s.fdo n = none) ∧ ∀ n, s.drives n = .undriven

/-- No adoption is being given back. -/
def State.notYielding (s : State) : Prop :=
  s.adopt.holder ≠ .yielding

/-- No entry waits for a restaging pass and no cross census is under way (R98, R170). -/
def State.noneToRestage (s : State) : Prop :=
  s.slotsWhere Entry.restage = [] ∧ ∀ r, (s.rail r).censusOpen = false

/-- R184, R185: the head of the command buffer is a well-formed transaction of command `c` with body
`body`, behind it `rest`, and a result can be placed. -/
def State.headIs (s : State) (c : FeedCommand) (body : List Byte) (rest : List Transaction) : Prop :=
  s.power = .on ∧ s.feed.results.length < 4 ∧
    ∃ bytes, s.feed.buffer = ⟨bytes, .wellFormed⟩ :: rest ∧ feedCommandOf (byteAt bytes 0) = some c
      ∧ bytes.drop 2 = body

/-- The feed port after the head has executed and placed a result. -/
def Feed.answered (f : Feed) (rest : List Transaction) (r : Result) : Feed :=
  { f with buffer := rest, results := f.results ++ [r] }

/-- Of the trunk only the feed port's wait for a transmit place can have begun, or got one (R185). -/
def State.onlyAwaitsPlace (s u : State) : Prop :=
  u.trunk = { s.trunk with waiters := u.trunk.waiters, feedGrant := u.trunk.feedGrant }

/-- The command of the table by which a head of feed command `c` executes. -/
def feedInstr (t : Micros) (lockN : Bool) (straps : Straps) : FeedCommand → Instr
  | .openBatch => .openBatch t
  | .putRecords => .putRecords t
  | .callFlip => .callFlip t
  | .stopBatch => .stopBatch t
  | .readStatus => .readStatus t
  | .readEntry => .readEntry t
  | .readCounters => .readCounters t
  | .writeEnable => .writeEnable t
  | .writeDisable => .writeDisable t
  | .assignPosition => .assignPosition t lockN
  | .clearPosition => .clearPosition t lockN
  | .setLock => .setLock t lockN
  | .clearAlert => .clearAlert t
  | .restart => .restart t straps

/-- R48, R63: the receiver is on, the line is BUSY and this station does not transmit. -/
def State.canReceive (s : State) : Prop :=
  s.power = .on ∧ s.phase ≠ .scan ∧ s.trunk.line = .busy ∧ s.trunk.transmitting = false

/-- The command by which a frame of station `src` is accepted. -/
def frameCommand (t : Micros) (src : Byte) : Frame → Instr
  | .opening b n r => .openFrame t src b n r
  | .price b r rs => .priceFrame t src b r rs
  | .digest d => .digestFrame t src d
  | .want b rs => .wantFrame t src b rs
  | .stop b => .stopFrame t src b
  | .flip b e => .flipFrame t src b e
  | .claim p => .claimFrame t src p
  | .yield p => .yieldFrame t src p

/-- Engine `k` carries the session of the job of kind `kind` at rail `r` and position `p`, which is on
the work list as `j`. -/
def State.carries (s : State) (k : Fin 4) (kind : JobKind) (r : Fin 8) (p : Fin 64) (j : Job) : Prop :=
  s.power = .on ∧ (∃ record, (s.engine k).activity = .session r (.job kind) p record) ∧ engineOf r = k
    ∧ (s.rail r).job? kind p = some j ∧ j.running = true

/-- The command by which a session of a label job fails, for the kinds whose jobs run one. -/
def failureCommand (t : Micros) (k : Fin 4) (e : SessionEnd) : JobKind → Option Instr
  | .prove => none
  | .census => some (.censusSessionEnd t k e .nothing)
  | .poll => some (.pollSessionEnd t k e .nothing)
  | .swap => some (.swapSessionEnd t k e)
  | .preload => some (.preloadSessionEnd t k e)
  | .assign => some (.assignSessionEnd t k e)
  | .revisit => some (.revisitSessionEnd t k e .nothing)

end Sys2Proof.Machine

namespace Sys2Proof

/-! ### Commands and the flash -/

/-- The commands under which the bank flash can change: the ends of its programs and erases (R33, R38)
and the resets that cut one off or let it finish (R42). -/
def Instr.storesBank : Instr → Bool
  | .powerOn .. | .powerLoss .. | .resetNFall .. | .restart .. | .flashRequestDone ..
  | .sectorEraseComplete .. => true
  | .resetNRise .. | .scanEnd .. | .listenEnd .. | .transactionEnd .. | .fetch .. | .openBatch ..
  | .putRecords .. | .callFlip .. | .stopBatch .. | .readStatus .. | .readEntry .. | .readCounters ..
  | .writeEnable .. | .writeDisable .. | .assignPosition .. | .clearPosition .. | .setLock ..
  | .clearAlert .. | .unknownCommand .. | .frameDiscarded .. | .openFrame .. | .priceFrame ..
  | .digestFrame .. | .wantFrame .. | .stopFrame .. | .flipFrame .. | .claimFrame .. | .yieldFrame ..
  | .lineIdle .. | .transmitStart .. | .collision .. | .transmissionComplete ..
  | .transmitPlaceGranted .. | .digestTimerExpiry .. | .isolationTimerExpiry .. | .wantDelayExpiry ..
  | .wantWaitExpiry .. | .trailingGapTimerExpiry .. | .answerTimerExpiry .. | .eraseSuspend ..
  | .directoryEraseComplete .. | .provingSessionEnd .. | .censusSessionEnd .. | .revisitSessionEnd ..
  | .pollSessionEnd .. | .swapSessionEnd .. | .preloadSessionEnd .. | .assignSessionEnd ..
  | .refusalCheckEnd .. | .stretchTimeout .. | .railResetPulseEnd .. | .railPowerLost ..
  | .railPowerReturn .. | .deadRailReprove .. | .pollDue .. | .revisitDue .. | .identityDue ..
  | .identityDueTimeout .. | .refusedJobRetry .. | .holdTimerExpiry .. | .gapTimerExpiry ..
  | .callTimerExpiry .. | .callPeriodExpiry .. | .quietTimerExpiry .. | .echoPeriodExpiry ..
  | .partnerSilenceTimerExpiry .. | .claimGuardExpiry .. | .holdLineAsserted .. | .waitReleaseTimeout ..
  | .holderSilence .. | .takingComplete .. | .holdLineReadbackReleased .. | .lineBusy .. | .fselNFall ..
  | .holdLineReadbackAsserted .. => false

/-- The commands under which a directory sector can change. -/
def Instr.storesDirectory : Instr → Bool
  | .directoryEraseComplete .. => true
  | .sectorEraseComplete .. => false
  | i => i.storesBank

/-- The moment at which a command happens (log entry 3). -/
def Instr.moment : Instr → Micros
  | .powerOn t .. => t
  | .powerLoss t => t
  | .resetNFall t => t
  | .resetNRise t .. => t
  | .scanEnd t => t
  | .listenEnd t => t
  | .transactionEnd t .. => t
  | .fetch t .. => t
  | .openBatch t => t
  | .putRecords t => t
  | .callFlip t => t
  | .stopBatch t => t
  | .readStatus t => t
  | .readEntry t => t
  | .readCounters t => t
  | .writeEnable t => t
  | .writeDisable t => t
  | .assignPosition t .. => t
  | .clearPosition t .. => t
  | .setLock t .. => t
  | .clearAlert t => t
  | .restart t .. => t
  | .unknownCommand t => t
  | .frameDiscarded t .. => t
  | .openFrame t .. => t
  | .priceFrame t .. => t
  | .digestFrame t .. => t
  | .wantFrame t .. => t
  | .stopFrame t .. => t
  | .flipFrame t .. => t
  | .claimFrame t .. => t
  | .yieldFrame t .. => t
  | .lineIdle t => t
  | .transmitStart t => t
  | .collision t => t
  | .transmissionComplete t => t
  | .transmitPlaceGranted t => t
  | .digestTimerExpiry t => t
  | .isolationTimerExpiry t => t
  | .wantDelayExpiry t .. => t
  | .wantWaitExpiry t .. => t
  | .trailingGapTimerExpiry t => t
  | .answerTimerExpiry t .. => t
  | .flashRequestDone t => t
  | .eraseSuspend t => t
  | .sectorEraseComplete t => t
  | .directoryEraseComplete t => t
  | .provingSessionEnd t .. => t
  | .censusSessionEnd t .. => t
  | .revisitSessionEnd t .. => t
  | .pollSessionEnd t .. => t
  | .swapSessionEnd t .. => t
  | .preloadSessionEnd t .. => t
  | .assignSessionEnd t .. => t
  | .refusalCheckEnd t .. => t
  | .stretchTimeout t .. => t
  | .railResetPulseEnd t .. => t
  | .railPowerLost t .. => t
  | .railPowerReturn t .. => t
  | .deadRailReprove t .. => t
  | .pollDue t .. => t
  | .revisitDue t .. => t
  | .identityDue t .. => t
  | .identityDueTimeout t .. => t
  | .refusedJobRetry t .. => t
  | .holdTimerExpiry t => t
  | .gapTimerExpiry t => t
  | .callTimerExpiry t => t
  | .callPeriodExpiry t => t
  | .quietTimerExpiry t => t
  | .echoPeriodExpiry t => t
  | .partnerSilenceTimerExpiry t => t
  | .claimGuardExpiry t .. => t
  | .holdLineAsserted t .. => t
  | .waitReleaseTimeout t => t
  | .holderSilence t => t
  | .takingComplete t .. => t
  | .holdLineReadbackReleased t .. => t
  | .lineBusy t => t
  | .fselNFall t => t
  | .holdLineReadbackAsserted t .. => t

/-- The commands that put a station into or through a reset (R203), whose blocks start over. -/
def Instr.resets : Instr → Bool
  | .powerOn .. | .powerLoss .. | .resetNFall .. | .resetNRise .. | .restart .. => true
  | _ => false

/-- The commands under which a bank, the hold queue or the unstored list can change beside the resets:
SCAN, the batch events and records, the flip, and the work of the flash engine (file 02). -/
def Instr.movesBatches : Instr → Bool
  | .scanEnd .. | .openBatch .. | .putRecords .. | .stopBatch .. | .openFrame .. | .priceFrame ..
  | .stopFrame .. | .holdTimerExpiry .. | .flashRequestDone .. | .sectorEraseComplete .. => true
  | i => i.resets

/-- The commands under which the feed port can change beside the resets (file 09). -/
def Instr.feeds : Instr → Bool
  | .fselNFall .. | .fetch .. | .transactionEnd .. | .openBatch .. | .putRecords .. | .callFlip ..
  | .stopBatch .. | .readStatus .. | .readEntry .. | .readCounters .. | .writeEnable ..
  | .writeDisable .. | .assignPosition .. | .clearPosition .. | .setLock .. | .clearAlert ..
  | .unknownCommand .. => true
  | i => i.resets

/-- The commands under which the flip coordinator can change beside the resets (R149 to R160). -/
def Instr.movesFlip : Instr → Bool
  | .openBatch .. | .callFlip .. | .stopBatch .. | .openFrame .. | .stopFrame .. | .flipFrame ..
  | .transmissionComplete .. | .holdTimerExpiry .. | .gapTimerExpiry .. | .callTimerExpiry ..
  | .callPeriodExpiry .. | .quietTimerExpiry .. | .echoPeriodExpiry .. => true
  | i => i.resets

/-- The commands that sample the straps and start the start sequence (R201, R203). -/
def Instr.samplesStraps : Instr → Bool
  | .powerOn .. => true
  | .resetNRise .. => true
  | .restart .. => true
  | _ => false

/-- The commands under which the supply, RESET_N or the start phase can change (R203 to R206). -/
def Instr.startsUp : Instr → Bool
  | .powerLoss .. => true
  | .resetNFall .. => true
  | .scanEnd .. => true
  | .listenEnd .. => true
  | i => i.samplesStraps

end Sys2Proof
end

