-- ==== Sys2Proof/Certificates/Slice0/Obligations.lean ====
section
/-! DEFINITION. The statements for the provers. -/

open Sys2Proof Sys2Proof.Machine Sys2Proof.Config

/-! ### The step and the whole machine -/

/-- With command `c` at the front of the queue, a step is `exec c` on the state whose queue is the rest;
on an empty queue the block idles (the model's choice, log entry 4). -/
def Obligations.StepRunsTheFrontCommand : Prop :=
  (∀ (c : Instr) (cs : List Instr) (s : State), s.pending = c :: cs →
      step s = exec c { s with pending := cs })
    ∧ ∀ s : State, s.pending = [] → step s = .next s

/-- Every command in every state answers a next state; the queue is left alone, and the clock goes to the
moment of the command, never back. That a command which cannot happen in its state, or a frame whose
operands no accepted frame has, completes too is the model's choice (log entries 3, 5 and 31). -/
def Obligations.EveryCommandCompletesAndKeepsTheQueue : Prop :=
  ∀ (c : Instr) (s : State), ∃ u, exec c s = .next u ∧ u.pending = s.pending ∧ u.now = max s.now c.moment

/-- The state after reset keeps its tables in canonical form, its receipt maps sound, its queues, counters
and feed buffers within their bounds, its banks in sound roles, and its walk, polls and adoption as the
statement EveryStepKeepsTheWorkSound has them (its straps and blank flash are the model's, log entries 1
and 2). -/
def Obligations.ResetStateIsSound : Prop :=
  State.reset.canonical ∧ State.reset.receiptsSound ∧ State.reset.bounded ∧ State.reset.feed.bounded
    ∧ State.reset.counters.bounded ∧ State.reset.rolesSound ∧ State.reset.workSound

/-- Every step keeps the bank flash, both directory sectors, the directory, its place states and the
source table in canonical form. R26, R32, R37: and from a state whose bank roles are sound every
step keeps the receipt map of each bank rising within 1..T, with the records of the hold queue, and those
that wait for the flash queue, of such numbers of the NEXT or the LIVE bank, and none in SCAN, and the dirty
sectors of each bank (R21) listed in ascending order. -/
def Obligations.EveryStepKeepsTheTablesCanonical : Prop :=
  ∀ s u : State, s.canonical → step s = .next u →
    u.canonical ∧ (s.rolesSound → s.receiptsSound → u.receiptsSound)

/-- Every step keeps the bounds of the flash request queue (R33), the hold queue (R37), the unstored list
(R41), the transmit queue (R54), the command buffer (R183), the result queue (R188) and the counters
(R208). -/
def Obligations.EveryStepKeepsTheBounds : Prop :=
  ∀ s u : State, s.bounded → s.feed.bounded → s.counters.bounded → step s = .next u →
    u.bounded ∧ u.feed.bounded ∧ u.counters.bounded

/-- R20: every step keeps at most one bank in role NEXT and at most one in role LIVE, each with a batch,
and the next batch newer than the live batch. -/
def Obligations.EveryStepKeepsTheBankRoles : Prop :=
  ∀ s u : State, s.rolesSound → step s = .next u → u.rolesSound

/-- Frames over all commands. The flash changes only under the commands that end a program or an erase or
cut one off; the straps only under those that sample them (R201), the supply, the level of RESET_N
and the start phase only under the start-up commands (R203 to R206); the banks, the hold queue and the unstored list only under
scan, batch, record, flip and flash commands; the feed port only under its own, and the flip coordinator
only under calls, batch events and its timers. -/
def Obligations.EachBlockChangesOnlyByItsCommands : Prop :=
  ∀ (c : Instr) (s u : State), exec c s = .next u →
    (c.storesBank = false → u.mem = s.mem)
      ∧ (c.storesDirectory = false → u.dirFlash = s.dirFlash ∧ u.lockFlash = s.lockFlash)
      ∧ (c.samplesStraps = false → u.straps = s.straps)
      ∧ (c.startsUp = false → u.power = s.power ∧ u.phase = s.phase ∧ u.listenUntil = s.listenUntil
          ∧ u.resetLow = s.resetLow)
      ∧ (c.movesBatches = false → u.bankA = s.bankA ∧ u.bankB = s.bankB ∧ u.holdQueue = s.holdQueue
          ∧ u.unstored = s.unstored)
      ∧ (c.feeds = false → u.feed = s.feed)
      ∧ (c.movesFlip = false → u.flip = s.flip)

/-! ### Numbers, records and formats -/

/-- R19: batch `a` is newer than batch `b` when their difference modulo 65,536 lies in 1..32,767; they
are the same batch when it is 0, and neither is newer when it is 32,768. -/
def Obligations.NewerBatchIsHalfTheNumberSpace : Prop :=
  ∀ a b : Batch,
    (newer a b = true ↔ 1 ≤ (a.toNat + 65536 - b.toNat) % 65536 ∧ (a.toNat + 65536 - b.toNat) % 65536 ≤ 32767)
      ∧ ((a.toNat + 65536 - b.toNat) % 65536 = 0 ↔ a = b)
      ∧ ((a.toNat + 65536 - b.toNat) % 65536 = 32768 → newer a b = false ∧ newer b a = false)

/-- R10, R11 and R12 for a MARKDOWN record with base price `p` of 1..9,999,999, markdown `m` of 1..90 and
ending rule `e`: the final price is the snap of the rounded-down marked-down price, raised to 1; the face
is MARKDOWN where it is below `p`, and otherwise REGULAR with markdown-void set. R13 and R14: a REGULAR
or MULTI record shows its base price; a MULTI face keeps its offer only where it saves; the unit price of
a pack is the rounded quotient, at least 1, with the overflow mark above 999,999, and absent without a
pack. -/
def Obligations.FaceFollowsTheStages : Prop :=
  (∀ (r : PriceRecord) (m : Nat) (e : EndingRule), r.kind = .markdown → r.markdown = some m →
      r.ending = some e → 1 ≤ r.base → r.base ≤ 9999999 → 1 ≤ m → m ≤ 90 →
      let floor := r.base * (100 - m) / 100
      let raised := if floor = 0 then 1 else floor
      let final := match e with
        | .none => raised
        | .end99 => if 99 ≤ raised then raised - (raised - 99) % 100 else raised
        | .end95 => if 95 ≤ raised then raised - (raised - 95) % 100 else raised
        | .whole => if 100 ≤ raised then raised - raised % 100 else raised
      (compose r).shown = final ∧ final ≤ r.base ∧ 1 ≤ final ∧ (compose r).base = r.base
        ∧ (final < r.base → (compose r).kind = .markdown ∧ (compose r).markdownVoid = false)
        ∧ (final = r.base → (compose r).kind = .regular ∧ (compose r).markdownVoid = true))
    ∧ (∀ r : PriceRecord,
          (r.kind = .regular → (compose r).shown = r.base ∧ (compose r).kind = .regular)
            ∧ (∀ n mp, r.kind = .multi → r.multi = some (n, mp) →
                (compose r).shown = r.base
                  ∧ (mp < n * r.base → (compose r).kind = .multi ∧ (compose r).multi = some (n, mp)
                      ∧ (compose r).multiVoid = false)
                  ∧ (n * r.base ≤ mp → (compose r).kind = .regular ∧ (compose r).multi = none
                      ∧ (compose r).multiVoid = true))
            ∧ (∀ pack, r.kind ≠ .withdraw → r.pack = some pack → 0 < pack.quantity →
                let up := (2 * (compose r).shown * pack.reference + pack.quantity) / (2 * pack.quantity)
                (compose r).unitCode = some pack.code
                  ∧ (999999 < up → (compose r).unitPrice = .overflow ∧ (compose r).unitOver = true)
                  ∧ (up = 0 → (compose r).unitPrice = .value 1 ∧ (compose r).unitOver = false)
                  ∧ (1 ≤ up → up ≤ 999999 → (compose r).unitPrice = .value up ∧ (compose r).unitOver = false))
            ∧ (r.pack = none → (compose r).unitPrice = .absent ∧ (compose r).unitCode = none
                ∧ (compose r).unitOver = false))

/-- R17: the face of every record that passes the validity test shows a price in 1..9,999,999 that does
not exceed the record's base price, and equals it unless the face is MARKDOWN or WITHDRAWN; a WITHDRAWN
face shows 1. -/
def Obligations.EveryComposedFaceShowsASoundPrice : Prop :=
  ∀ (bytes : Record) (r : PriceRecord), judgeRecord bytes = .ok r →
    1 ≤ (compose r).shown ∧ (compose r).shown ≤ 9999999 ∧ (compose r).shown ≤ r.base
      ∧ ((compose r).kind ≠ .markdown → (compose r).kind ≠ .withdrawn → (compose r).shown = r.base)
      ∧ ((compose r).kind = .withdrawn → (compose r).shown = 1)

/-- R16, R116: the page of a composed face has 32 bytes, its last two the sum of the others, so that a
label in SHOWING takes it as its pending page, and STATUS then reads the face's batch and check. -/
def Obligations.LabelTakesEveryComposedPage : Prop :=
  ∀ (f : Face) (l : Label), l.state = .showing →
    f.page.length = 32 ∧ field f.page 30 2 = byteSum (f.page.take 30)
      ∧ (l.session (.writePending f.page)).2.1 = .done
      ∧ (l.session (.writePending f.page)).1.status.page = some (f.batch, f.check)

/-- R47, R49, R50, R65: every frame with a usable source and fields in range that is sent on the wire is
received as the frame it is; no bit of it is dropped. -/
def Obligations.EverySentFrameIsReceivedAsSent : Prop :=
  ∀ (src : Byte) (f : Frame), stationFits src = true → frameFits f = true →
    judgeReception false (frameWire src f) = .accepted src f

/-! ### Supply, resets and start phases -/

/-- R203, R201: a power-on with RESET_N high, and RESET_N rising on a station held in reset, leave the
clock, the levels of the power-sense pins, of RESET_N and of FSEL_N (the pins' own, log entries 8, 29 and 40)
and the flash; they take the straps and put all other state of every block at its reset value, in SCAN, but
for the directory, which is loaded from its sectors at once (R91, R111). With RESET_N low a power-on takes
the straps and leaves the station held, nothing loaded (log entry 29). R42, R203: a power loss, and RESET_N
falling on a powered station, put all state of every block at its reset value likewise, the straps as sampled
before; the station is off or held. Otherwise RESET_N changes its own level alone. R42, R111: where no program and no erase is in flight the flash is kept as it is; one in
flight is cut off: a program has cleared some of the bits it would clear, an erase set some bits of its
sector, a directory place in program keeps its content or is damaged, the erase of the entries sector leaves
places as they were, damaged or erased, and that of the lock sector leaves none good (which of these, log
entry 7). R203, R186, R167, R212: without a valid supply every output is undriven, FRDY too; while RESET_N
holds the station FRDY is low and the other outputs are released; otherwise FRDY is high exactly in RUN with
fewer than four transactions buffered. -/
def Obligations.PowerAndResetStartAndStopTheStation : Prop :=
  (∀ (t : Micros) (straps : Straps) (s : State),
      (∃ u, exec (.powerOn t straps) s = .next u ∧
          u = { State.reset with
            pending := s.pending, now := max s.now t, draws := u.draws, straps := straps, mem := u.mem
            power := if s.resetLow then .held else .on
            dirFlash := u.dirFlash, lockFlash := u.lockFlash, dir := u.dir
            rails := s.rails.map fun r => Rail.reset r.power, resetLow := s.resetLow, fselLow := s.fselLow }
          ∧ (s.flash.doneAt = none → s.flash.erase = none →
              u.mem = s.mem ∧ u.dirFlash = s.dirFlash ∧ u.lockFlash = s.lockFlash)
          ∧ (s.canonical → s.cutInto u ∧ (s.resetLow = false → u.loadedFromFlash false))
          ∧ (s.resetLow = true → u.dir = State.reset.dir))
        ∧ (s.power ≠ .held → exec (.resetNRise t straps) s = .next { s with now := max s.now t, resetLow := false })
        ∧ (s.power ≠ .on → exec (.resetNFall t) s = .next { s with now := max s.now t, resetLow := true })
        ∧ (s.power = .held → ∃ u, exec (.resetNRise t straps) s = .next u ∧
            u = { State.reset with
              pending := s.pending, now := max s.now t, draws := s.draws, straps := straps, mem := s.mem
              dirFlash := s.dirFlash, lockFlash := s.lockFlash, dir := u.dir
              rails := s.rails.map fun r => Rail.reset r.power, resetLow := false, fselLow := s.fselLow }
            ∧ (s.canonical → u.loadedFromFlash false)))
    ∧ (∀ (t : Micros) (i : Instr) (p : Power) (low : Bool) (s : State),
          (i = .powerLoss t ∧ p = .off ∧ low = s.resetLow)
            ∨ (i = .resetNFall t ∧ p = .held ∧ low = true ∧ s.power = .on) →
          ∃ u, exec i s = .next u ∧
            u = { State.reset with
              pending := s.pending, now := max s.now t, draws := u.draws, power := p, straps := s.straps
              mem := u.mem, dirFlash := u.dirFlash, lockFlash := u.lockFlash
              rails := s.rails.map fun r => Rail.reset r.power, resetLow := low, fselLow := s.fselLow }
            ∧ (s.flash.doneAt = none → s.flash.erase = none →
                u.mem = s.mem ∧ u.dirFlash = s.dirFlash ∧ u.lockFlash = s.lockFlash)
            ∧ (s.canonical → s.cutInto u))
    ∧ (∀ s : State,
          (s.power = .off → s.frdy = none ∧ s.releasesOutputs)
            ∧ (s.power = .held → s.frdy = some false ∧ s.releasesOutputs)
            ∧ (s.power = .on → ∃ high, s.frdy = some high
                ∧ (high = true ↔ s.phase = .run ∧ s.feed.buffer.length < 4)))

/-- R200, R203, R42: a well-formed RESTART at the head, in any phase, samples the straps and starts the
sequence over with every block at its reset value, the session lock and the levels of the pins kept (log
entries 8, 29 and 40), and with the directory loaded from its sectors (R91, R111). The program in service, if
any, finishes. Where no erase is in flight the flash is as that program leaves it. An erase in flight is cut
off: one of a bank sector has set some bits of that sector and changed no other byte, one of the entries
sector leaves places as they were, damaged or erased, and one of the lock sector leaves no place good (which
of these, log entry 7). -/
def Obligations.RestartKeepsTheSessionLockAndFinishesTheProgram : Prop :=
  ∀ (t : Micros) (straps : Straps) (rest : List Transaction) (bytes : List Byte) (s : State),
    s.power = .on → s.feed.buffer = ⟨bytes, .wellFormed⟩ :: rest →
    feedCommandOf (byteAt bytes 0) = some .restart →
    let done := finishProgram s
    ∃ u, exec (.restart t straps) s = .next u ∧
      u = { State.reset with
        pending := s.pending, now := max s.now t, draws := u.draws, straps := straps, mem := u.mem
        dirFlash := u.dirFlash, lockFlash := u.lockFlash, dir := u.dir
        rails := s.rails.map fun r => Rail.reset r.power, resetLow := s.resetLow, fselLow := s.fselLow }
      ∧ (s.flash.erase = none → u.draws = s.draws ∧ u.mem = done.mem ∧ u.dirFlash = done.dirFlash
          ∧ u.lockFlash = done.lockFlash)
      ∧ (s.canonical → u.loadedFromFlash s.dir.sessionLock
          ∧ { done with flash := { done.flash with doneAt := none } }.cutInto u)

/-- R204, R205: at the end of SCAN the station is in LISTEN for 3 s with the receiver on and the isolation
timer running; the articles, place states and lock mode loaded at its start stand (R91, R111), and the flash
is kept. R43: each bank has the role its header claims (a valid header without a usable count place claims
none, log entry 20), but that of two LIVE or two NEXT banks the newer keeps its role, A where neither is
newer, and a NEXT bank not newer than the LIVE one is RETIRED. R43, R44: a NEXT or LIVE bank carries its
header's batch; its slots are STORED exactly where they hold a good record of it and MISSING elsewhere; the
damaged slots of a sector with a good record are spoiled; the sectors with damaged slots and no good record
are its erase list, ascending; those with a slot not erased are dirty (log entry 16); its T is the last
value of the rising row of count places, raised to the highest good record. A RETIRED or NONE bank has all
256 sectors to erase. The discard counts are 0. -/
def Obligations.ScanRebuildsFromFlashAndBeginsListen : Prop :=
  ∀ (t : Micros) (s : State), s.power = .on → s.phase = .scan → s.canonical →
    ∃ u, exec (.scanEnd t) s = .next u ∧ u.phase = .listen
      ∧ u.listenUntil = some (max s.now t + 3000000) ∧ u.trunk.line = .quiet
      ∧ u.trunk.isolationAt = some (max s.now t + 60000000)
      ∧ (∀ i : Nat, (u.entry i).article = (s.entry i).article)
      ∧ u.dir.places = s.dir.places ∧ u.dir.storedMode = s.dir.storedMode ∧ u.dir.lockUsed = s.dir.lockUsed
      ∧ (∀ i, (u.bank i).bankScanned s.mem i)
      ∧ u.mem = s.mem ∧ u.dirFlash = s.dirFlash ∧ u.lockFlash = s.lockFlash

/-- R206, R62, R177: when the 3 s of LISTEN have passed the station is in RUN; the digest timer runs,
with 2 to 2.5 s in the fast condition and 10 to 10.5 s in the slow one; the home rails are all in
WAIT_RELEASE, for 20 s, where a holder trigger stands, and otherwise all in TAKING, with their 5 ms
already running (that the lines read back asserted at once is the model's choice, log entry 9). -/
def Obligations.ListenEndBeginsRun : Prop :=
  ∀ (t : Micros) (s : State), s.power = .on → s.phase = .listen → expired s.listenUntil (s.at t) = true →
    ∃ u, exec (.listenEnd t) s = .next u ∧ u.phase = .run ∧ u.listenUntil = none
      ∧ (∃ d, u.trunk.digestAt = some (max s.now t + d)
          ∧ (s.fast = true → 2000000 ≤ d ∧ d ≤ 2500000) ∧ (s.fast = false → 10000000 ≤ d ∧ d ≤ 10500000))
      ∧ (∀ h, s.adopt.trigger = some h →
          (∀ k : Fin 4, u.adopt.home[k] = .waitRelease) ∧ u.adopt.waitUntil = some (max s.now t + 20000000))
      ∧ (s.adopt.trigger = none →
          ∀ k : Fin 4, u.adopt.home[k] = .taking (some (max s.now t + 5000)))
      ∧ u.mem = s.mem ∧ u.bankA = s.bankA ∧ u.bankB = s.bankB ∧ u.dir = s.dir ∧ u.counters = s.counters
      ∧ u.alerts = s.alerts

/-! ### The feed port -/

/-- R180, R189: the fall of FSEL_N begins a transaction; the length byte of a FETCH chooses the oldest
result, or the empty form where there is none, and a length byte other than 0 chooses nothing. Nothing
else changes. R180, R181, R189: while FSEL_N is low FDO carries 0x00 in the first two bytes, then the
chosen bytes and 0x00 after them, 0x00 throughout where nothing is chosen (the first two bytes log entry
40); while it is high, whatever the rest of the state, FDO is high impedance. R180: the bits of each byte are
on FDO most significant first, the first from the fall of FSEL_N or the falling edge of FSCK that ends the
byte before it, each next one from the next falling edge. The command FETCH comes at the rising edge that
samples the last bit of the byte after the FETCH code, and after no other first byte. -/
def Obligations.FetchChoosesTheOldestResult : Prop :=
  (∀ (t : Micros) (length : Byte) (s : State), s.power = .on →
      (s.feed.txn = none → exec (.fselNFall t) s =
          .next { s with now := max s.now t, fselLow := true, feed := { s.feed with txn := some .nothing } })
        ∧ (s.feed.txn = some .nothing → exec (.fetch t length) s =
          .next { s with
            now := max s.now t
            feed := { s.feed with txn := some (
              if length = 0 then (if s.feed.results = [] then .empty else .oldest) else .nothing) } }))
    ∧ (∀ (n : Nat) (s : State), s.fselLow = false → s.fdo n = none)
    ∧ (∀ (c : Choice) (n : Nat) (s : State), s.power = .on → s.fselLow = true → s.feed.txn = some c →
          (n < 2 ∨ c = .nothing → s.fdo n = some 0x00)
            ∧ (∀ r rs, c = .oldest → s.feed.results = r :: rs →
                s.fdo (n + 2) = some (byteAt
                  (be1 (2 + r.body.length) ++ [r.echo, r.code.byte] ++ r.body) n))
            ∧ (c = .empty → s.fdo (n + 2) = some (byteAt [0x02, 0x40, 0xFF] n)))
    ∧ (∀ (n : Nat) (s : State),
          (∀ b, s.fdo n = some b → (List.range 8).map (fun j => s.fdoBit (8 * n + j)) = (bitsOf [b]).map some)
            ∧ (s.fdo n = none → ∀ j, j < 8 → s.fdoBit (8 * n + j) = none))
    ∧ (∀ (t : Micros) (code length : Byte) (c : PortClock),
          let c := c.run (.selectFall :: clocked ((bitsOf [code, length]).take 15))
          c.command t (.clockRise (length.getLsbD 0)) = if code = 0x40 then some (.fetch t length) else none)

/-- R181, R182, R183, R187, R189: FSEL_N rises. Nothing clocked, or a part of a byte, changes neither
buffer nor results nor the overrun flag; a FETCH releases the chosen result where every byte it counts
has been clocked; a command transaction joins the buffer with its judgement, or sets the overrun flag
where the buffer holds four. Beside the feed port only the wait for a transmit place can begin. R180: the
bits and bytes of a transaction are those sampled from FDI at the rising edges of FSCK since the fall of
FSEL_N, most significant bit first, eight to a byte, whatever came before; edges while FSEL_N is high count
for nothing. The port keeps 257 bytes (R182). -/
def Obligations.TransactionEndSettlesTheTransaction : Prop :=
  (∀ (t : Micros) (bits : Nat) (bytes : List Byte) (choice : Choice) (s : State), s.power = .on →
    s.feed.txn = some choice →
    ∃ u, exec (.transactionEnd t bits bytes) s = .next u
      ∧ u = { s with now := max s.now t, fselLow := false, feed := u.feed, trunk := u.trunk }
      ∧ u.feed.txn = none ∧ s.onlyAwaitsPlace u
      ∧ (bits % 8 ≠ 0 ∨ bits = 0 →
          u.feed.buffer = s.feed.buffer ∧ u.feed.results = s.feed.results ∧ u.feed.overrun = s.feed.overrun)
      ∧ (0 < bits → bits % 8 = 0 → byteAt bytes 0 = 0x40 →
          u.feed.buffer = s.feed.buffer ∧ u.feed.overrun = s.feed.overrun
            ∧ (∀ r rs, choice = .oldest → s.feed.results = r :: rs → 3 + r.length ≤ bits / 8 →
                u.feed.results = rs)
            ∧ (choice ≠ .oldest → u.feed.results = s.feed.results)
            ∧ (∀ r rs, s.feed.results = r :: rs → bits / 8 < 3 + r.length →
                u.feed.results = s.feed.results))
      ∧ (0 < bits → bits % 8 = 0 → byteAt bytes 0 ≠ 0x40 → s.feed.buffer.length < 4 →
          u.feed.buffer = s.feed.buffer ++ [⟨bytes.take 257, judgeTransaction (bits / 8) (bytes.take 257)⟩]
            ∧ u.feed.results = s.feed.results ∧ u.feed.overrun = s.feed.overrun)
      ∧ (0 < bits → bits % 8 = 0 → byteAt bytes 0 ≠ 0x40 → 4 ≤ s.feed.buffer.length →
          u.feed.buffer = s.feed.buffer ∧ u.feed.results = s.feed.results ∧ u.feed.overrun = true))
    ∧ (∀ (t : Micros) (bytes : List Byte) (tail : List Bool) (high : List Bool) (c : PortClock), tail.length < 8 →
        let ended := (c.run (.selectFall :: clocked (bitsOf bytes ++ tail))).after .selectRise
        (c.run (.selectFall :: clocked (bitsOf bytes ++ tail))).command t .selectRise
            = some (.transactionEnd t (8 * bytes.length + tail.length) (bytes.take 257))
          ∧ ended.run (clocked high) = ended)

/-- R195, R196, R197: the three reads place their results, DONE with the record, entry or counters as
they stand at that moment, BAD_RANGE for a slot above 511. READ_STATUS then clears the overrun flag, and
READ_COUNTERS with bit 0 of its clear byte set every counter; nothing else changes but the wait of the
next head for a transmit place. R182, R184, R188: a head of no command places UNKNOWN_COMMAND with its
first byte as echo, in any phase, and nothing else is done. -/
def Obligations.ReadsAndUnknownHeadsPlaceTheirResults : Prop :=
  (∀ (t : Micros) (body : List Byte) (rest : List Transaction) (s : State),
      (s.headIs .readStatus body rest → ∃ u, exec (.readStatus t) s = .next u
          ∧ u = { s with
              now := max s.now t, trunk := u.trunk
              feed := { s.feed.answered rest ⟨0x20, .done, statusRecord s⟩ with overrun := false } }
          ∧ s.onlyAwaitsPlace u)
        ∧ (s.headIs .readEntry body rest → ∃ u, exec (.readEntry t) s = .next u
          ∧ u = { s with
              now := max s.now t, trunk := u.trunk
              feed := s.feed.answered rest
                (if 511 < field body 0 2 then ⟨0x21, .badRange, []⟩
                 else ⟨0x21, .done, entryBody (max s.now t) (field body 0 2) (s.entry (field body 0 2))⟩) }
          ∧ s.onlyAwaitsPlace u)
        ∧ (s.headIs .readCounters body rest → ∃ u, exec (.readCounters t) s = .next u
          ∧ u = { s with
              now := max s.now t, trunk := u.trunk
              feed := s.feed.answered rest ⟨0x22, .done, countersBody s.counters⟩
              counters := if (byteAt body 0).getLsbD 0 then Counters.zero else s.counters }
          ∧ s.onlyAwaitsPlace u))
    ∧ (∀ (t : Micros) (bytes : List Byte) (rest : List Transaction) (s : State), s.power = .on →
          s.feed.results.length < 4 → s.feed.buffer = ⟨bytes, .unknownCommand⟩ :: rest →
          ∃ u, exec (.unknownCommand t) s = .next u
            ∧ u = { s with
                now := max s.now t, trunk := u.trunk
                feed := s.feed.answered rest ⟨byteAt bytes 0, .unknownCommand, []⟩ }
            ∧ s.onlyAwaitsPlace u)

/-- R104: WRITE_ENABLE sets the write-enable latch and WRITE_DISABLE clears it, in every phase and lock
mode, with the result DONE and nothing else set or cleared; the latch is clear after a power-on. R199,
R211: CLEAR_ALERT returns DONE and clears each cause whose bit is set in its causes byte, leaving the
others; rail-dead, isolated and adoption latch again at once where a rail is DEAD, the station is
isolated, or rails are held; ALERT_N is not low with no cause latched. -/
def Obligations.LatchAndAlertCommandsChangeWhatTheyName : Prop :=
  (∀ (t : Micros) (body : List Byte) (rest : List Transaction) (s : State),
      (s.headIs .writeEnable body rest → ∃ u, exec (.writeEnable t) s = .next u
          ∧ u = { s with
              now := max s.now t, trunk := u.trunk, dir := { s.dir with wel := true }
              feed := s.feed.answered rest ⟨0x30, .done, []⟩ }
          ∧ s.onlyAwaitsPlace u)
        ∧ (s.headIs .writeDisable body rest → ∃ u, exec (.writeDisable t) s = .next u
          ∧ u = { s with
              now := max s.now t, trunk := u.trunk, dir := { s.dir with wel := false }
              feed := s.feed.answered rest ⟨0x31, .done, []⟩ }
          ∧ s.onlyAwaitsPlace u)
        ∧ (∀ straps u, exec (.powerOn t straps) s = .next u → u.dir.wel = false))
    ∧ (∀ (t : Micros) (body : List Byte) (rest : List Transaction) (s : State), s.headIs .clearAlert body rest →
          ∃ u, exec (.clearAlert t) s = .next u
            ∧ u = { s with
                now := max s.now t, trunk := u.trunk, alerts := u.alerts
                feed := s.feed.answered rest ⟨0x35, .done, []⟩ }
            ∧ s.onlyAwaitsPlace u
            ∧ u.alerts.railDead = (if (byteAt body 0).getLsbD 0 then s.rails.toList.any fun r => r.state = .dead
                else s.alerts.railDead)
            ∧ u.alerts.entryFault = (s.alerts.entryFault && !(byteAt body 0).getLsbD 1)
            ∧ u.alerts.adoption = (if (byteAt body 0).getLsbD 2 then
                  (s.adopt.holder = .holding || s.adopt.holder = .yielding : Bool) else s.alerts.adoption)
            ∧ u.alerts.isolated = (if (byteAt body 0).getLsbD 3 then s.trunk.isolated else s.alerts.isolated)
            ∧ u.alerts.duplicate = (s.alerts.duplicate && !(byteAt body 0).getLsbD 4)
            ∧ u.alerts.holdOverflow = (s.alerts.holdOverflow && !(byteAt body 0).getLsbD 5)
            ∧ u.alerts.missed = (s.alerts.missed && !(byteAt body 0).getLsbD 6)
            ∧ u.alerts.mismatch = (s.alerts.mismatch && !(byteAt body 0).getLsbD 7)
            ∧ (u.alerts.any = false → u.alertLow = false))

/-- R103, R104, R198: in RUN a well-formed ASSIGN_POSITION, CLEAR_POSITION or SET_LOCK is refused by the
first of the checks that fails, with the latch clear afterwards; refused, it changes no home entry's
article, no lock and no place state. -/
def Obligations.DirectoryWritesAreCheckedInOrder : Prop :=
  ∀ (t : Micros) (lockN : Bool) (c : FeedCommand) (i : Instr) (act : Option (State → State))
    (body : List Byte) (rest : List Transaction) (s : State), s.inRun →
    s.canonical → s.headIs c body rest →
    ((c = .assignPosition ∧ i = .assignPosition t lockN ∧ act = assignAct body)
      ∨ (c = .clearPosition ∧ i = .clearPosition t lockN ∧ act = clearAct body)
      ∨ (c = .setLock ∧ i = .setLock t lockN ∧ act = lockAct body)) →
    ∃ u code, exec i s = .next u ∧ u.dir.wel = false ∧ u.feed = s.feed.answered rest ⟨c.code, code, []⟩
      ∧ code = (if s.dir.wel = false then .refusedWel
          else if lockAllows s.lockMode lockN = false then .refusedLock
          else if act.isNone then .badRange else .done)
      ∧ (code ≠ .done → u.dir.storedMode = s.dir.storedMode ∧ u.dir.sessionLock = s.dir.sessionLock
          ∧ u.dir.places = s.dir.places
          ∧ ∀ n : Nat, n < 256 → (u.entry n).article = (s.entry n).article)

/-- R107, R198: an admitted ASSIGN_POSITION gives the home slot the article; the missed and
article-mismatch flags are clear, an ASSIGN job for the position is on the rail's list, and a SWAPPING,
ABSENT or FAULTED entry keeps its state. Where the article is new, or the clear-waiting mark was set, the
position has no POLL, SWAP or CENSUS job left (log entries 14 and 30), the shown batch and the serial stay,
and an entry of another state is CURRENT, or STAGED or PRELOADING by the walk that follows; that no walk was
due before (invariant EveryStepKeepsTheWorkSound) is the premise. Where the entry already holds the article its
records, shown batch, serial, count and face flags stay (the face flags by R107, not R89: the model's choice,
log entry 63), and so does its state, but that a PRELOAD may begin on a STAGED one. R108, R198: an admitted CLEAR_POSITION of
an entry that is not SWAPPING makes it VACANT with no article, serial, shown batch or records, its count 0,
its missed and mismatch flags clear and all its jobs withdrawn (log entry 30); a SWAPPING entry keeps its
article and state with the clear-waiting mark set; a VACANT one stays as it is. No other home entry's
article changes. -/
def Obligations.AssignAndClearChangeOneEntry : Prop :=
  (∀ (t : Micros) (lockN : Bool) (body : List Byte) (rest : List Transaction) (n a : Nat) (s : State),
      s.inRun → s.canonical → s.headIs .assignPosition body rest → s.dir.wel = true →
      lockAllows s.lockMode lockN = true → homeSlot (byteAt body 0).toNat (byteAt body 1).toNat = some n →
      articleOf (slice body 2 7) = some a →
      ∃ u, exec (.assignPosition t lockN) s = .next u
        ∧ (u.entry n).article = some a ∧ (u.entry n).missed = false ∧ (u.entry n).mismatch = false
        ∧ (∃ j ∈ (u.rail (railOf n)).work, j.kind = .assign ∧ j.pos = posOf n)
        ∧ ((s.entry n).state = .swapping ∨ (s.entry n).state = .absent ∨ (s.entry n).state = .faulted →
            (u.entry n).state = (s.entry n).state)
        ∧ (s.noneToRestage → (s.entry n).article ≠ some a ∨ (s.entry n).clearWaiting = true →
            (∀ j ∈ (u.rail (railOf n)).work, j.pos = posOf n → j.kind = .prove ∨ j.kind = .revisit
                ∨ j.kind = .assign ∨ j.kind = .preload)
              ∧ (u.entry n).clearWaiting = false ∧ (u.entry n).shown = (s.entry n).shown
              ∧ (u.entry n).serial = (s.entry n).serial ∧ (u.entry n).attempts = 0
              ∧ ((s.entry n).state ≠ .swapping → (s.entry n).state ≠ .absent → (s.entry n).state ≠ .faulted →
                  (u.entry n).state = .current ∨ (u.entry n).state = .staged ∨ (u.entry n).state = .preloading))
        ∧ (s.noneToRestage → (s.entry n).article = some a → (s.entry n).clearWaiting = false →
            let e := s.entry n
            let v := u.entry n
            v.pending = e.pending ∧ v.deferred = e.deferred ∧ v.shown = e.shown ∧ v.serial = e.serial
              ∧ v.attempts = e.attempts ∧ v.markdownVoid = e.markdownVoid ∧ v.multiVoid = e.multiVoid
              ∧ v.unitOver = e.unitOver
              ∧ (v.state = e.state ∨ (e.state = .staged ∧ v.state = .preloading)))
        ∧ (∀ m : Nat, m < 256 → m ≠ n → (u.entry m).article = (s.entry m).article))
    ∧ (∀ (t : Micros) (lockN : Bool) (body : List Byte) (rest : List Transaction) (n : Nat) (s : State),
          s.inRun → s.canonical → s.noneToRestage → s.headIs .clearPosition body rest → s.dir.wel = true →
          lockAllows s.lockMode lockN = true → homeSlot (byteAt body 0).toNat (byteAt body 1).toNat = some n →
          ∃ u, exec (.clearPosition t lockN) s = .next u
            ∧ ((s.entry n).state ≠ .swapping → (s.entry n).state ≠ .vacant →
                (u.entry n).state = .vacant ∧ (u.entry n).article = none ∧ (u.entry n).serial = none
                  ∧ (u.entry n).shown = none ∧ (u.entry n).pending = none ∧ (u.entry n).deferred = none
                  ∧ (u.entry n).missed = false ∧ (u.entry n).mismatch = false ∧ (u.entry n).attempts = 0
                  ∧ ∀ j ∈ (u.rail (railOf n)).work, j.pos = posOf n → j.kind = .prove)
            ∧ ((s.entry n).state = .swapping →
                (u.entry n).state = .swapping ∧ (u.entry n).article = (s.entry n).article
                  ∧ (u.entry n).pending = none ∧ (u.entry n).clearWaiting = true)
            ∧ ((s.entry n).state = .vacant → u.entry n = s.entry n)
            ∧ (∀ m : Nat, m < 256 → m ≠ n → (u.entry m).article = (s.entry m).article))

/-- R106: an admitted SET_LOCK of SESSION sets the session lock and leaves the stored mode; one of OPEN,
PIN or PERMANENT gives the stored mode that value and leaves the session lock; a lock place is used only
where the stored mode changes. -/
def Obligations.SetLockTakesTheModeItNames : Prop :=
  ∀ (t : Micros) (lockN : Bool) (body : List Byte) (rest : List Transaction) (m : LockMode) (s : State),
    s.inRun → s.headIs .setLock body rest → s.dir.wel = true → lockAllows s.lockMode lockN = true →
    lockModeOf (byteAt body 0).toNat = some m →
    ∃ u, exec (.setLock t lockN) s = .next u
      ∧ (m = .session → u.dir.sessionLock = true ∧ u.dir.storedMode = s.dir.storedMode)
      ∧ (m = .open → u.dir.storedMode = .open) ∧ (m = .pin → u.dir.storedMode = .pin)
      ∧ (m = .permanent → u.dir.storedMode = .permanent)
      ∧ (m ≠ .session → u.dir.sessionLock = s.dir.sessionLock)
      ∧ (m = .session ∨ u.dir.storedMode = s.dir.storedMode → u.dir.lockUsed = s.dir.lockUsed)

/-- R190: the OPEN_BATCH of a granted place on a station with a number: outside 1..32,767 BAD_RANGE; a
batch newer than both opens as next with its record count, no record held; the next batch takes the
larger count; any other batch is OLD_BATCH. The model reserves the granted place until then (log entry
33). The OPEN goes to the tail of the transmit queue where the result is DONE. -/
def Obligations.OpenBatchOpensMergesOrRefuses : Prop :=
  ∀ (t : Micros) (body : List Byte) (rest : List Transaction) (s : State),
    s.inRun → s.notYielding → s.rolesSound → s.listenOnly = false → s.trunk.feedGrant = true →
    s.headIs .openBatch body rest →
    let b := batchAt body 0
    let n := field body 2 2
    ∃ u code, exec (.openBatch t) s = .next u ∧ u.feed = s.feed.answered rest ⟨0x10, code, []⟩
      ∧ u.mem = s.mem
      ∧ (n < 1 ∨ 32767 < n → code = .badRange ∧ u.bankA = s.bankA ∧ u.bankB = s.bankB)
      ∧ (1 ≤ n → n ≤ 32767 → s.newerThanBoth b = true →
          code = .done ∧ (∃ i, u.bankIn .next = some i ∧ (u.bank i).batch = some b ∧ (u.bank i).count = n
              ∧ (u.bank i).held = 0)
            ∧ u.trunk.queue.getLast?.map QueuedFrame.frame = some (.opening b (BitVec.ofNat 16 n) false))
      ∧ (1 ≤ n → n ≤ 32767 → ∀ i, s.bankIn .next = some i → (s.bank i).batch = some b →
          code = .done ∧ (u.bank i).count = max (s.bank i).count n
            ∧ u.trunk.queue.getLast?.map QueuedFrame.frame
                = some (.opening b (BitVec.ofNat 16 (max (s.bank i).count n)) false))
      ∧ (1 ≤ n → n ≤ 32767 → s.newerThanBoth b = false → s.nextBatch ≠ some b →
          code = .oldBatch ∧ u.bankA = s.bankA ∧ u.bankB = s.bankB)

/-- R191, R192: the PUT_RECORDS of a granted place on a station with a number: NO_BATCH where the batch
is not the next one; BAD_RANGE where no record is accepted, with the index and fault of the first; and
otherwise DONE with the number accepted, the accepted records going byte for byte into one PRICE frame at
the tail of the transmit queue. R192, R29, R32: with room in the hold queue and the unstored list, each
accepted record is then held, and no other number is; each that repeats a number held before, or carried
earlier in the command, is counted as a duplicate; the other bank stays as it is. -/
def Obligations.PutRecordsJudgesEachRecord : Prop :=
  ∀ (t : Micros) (body : List Byte) (rest : List Transaction) (s : State),
    s.inRun → s.notYielding → s.listenOnly = false → s.trunk.feedGrant = true → s.headIs .putRecords body rest →
    let b := batchAt body 0
    let rs := recordsOf (byteAt body 2).toNat (body.drop 3)
    ∃ u code result, exec (.putRecords t) s = .next u
      ∧ u.feed = s.feed.answered rest ⟨0x11, code, result⟩ ∧ u.mem = s.mem
      ∧ (s.nextBatch ≠ some b → code = .noBatch ∧ result = [0, 0, 0] ∧ u.bankA = s.bankA ∧ u.bankB = s.bankB)
      ∧ (∀ i, s.bankIn .next = some i → (s.bank i).batch = some b →
          let accepted := rs.filter fun r => recordFault b (s.bank i).count r = 0
          let rejected := firstRejected 1 (rs.map (recordFault b (s.bank i).count))
          let fresh := (accepted.map recSeq).dedup.filter fun n => (s.bank i).mark n = none
          (accepted = [] → code = .badRange ∧ result = putBody 0 rejected ∧ u.bankA = s.bankA
              ∧ u.bankB = s.bankB)
            ∧ (accepted ≠ [] → code = .done ∧ result = putBody accepted.length rejected
              ∧ u.trunk.queue.getLast?.map QueuedFrame.frame = some (.price b false accepted)
              ∧ (s.holdQueue.length + accepted.length ≤ 64 → s.unstored.length + accepted.length ≤ 16 →
                  (∀ n, ((u.bank i).mark n).isSome = (((s.bank i).mark n).isSome || (accepted.map recSeq).contains n))
                    ∧ ((s.bank i).duplicates ≤ 65535 → (u.bank i).duplicates
                        = min 65535 ((s.bank i).duplicates + (accepted.length - fresh.length)))
                    ∧ (u.bank i).count = (s.bank i).count ∧ (u.bank i).beyond = (s.bank i).beyond
                    ∧ u.bank i.other = s.bank i.other)))

/-- R193, R157, R158: the CALL_FLIP of a granted place on a station with a number: for the next batch a
call period of 30 s starts with a tick each 250 ms and its first FLIP frame at the tail of the transmit
queue; for any other batch NOT_NEXT. No bank changes. -/
def Obligations.CallFlipStartsTheCallPeriod : Prop :=
  ∀ (t : Micros) (body : List Byte) (rest : List Transaction) (s : State),
    s.inRun → s.notYielding → s.listenOnly = false → s.trunk.feedGrant = true → s.headIs .callFlip body rest →
    let b := batchAt body 0
    ∃ u code, exec (.callFlip t) s = .next u ∧ u.feed = s.feed.answered rest ⟨0x12, code, []⟩
      ∧ u.bankA = s.bankA ∧ u.bankB = s.bankB ∧ u.mem = s.mem ∧ u.counters = s.counters
      ∧ (s.nextBatch = some b → code = .done
          ∧ u.flip.call = some ⟨b, max s.now t + 30000000, max s.now t + 250000⟩
          ∧ u.flip.hold = s.flip.hold
          ∧ u.trunk.queue.getLast?.map QueuedFrame.frame = some (.flip b false))
      ∧ (s.nextBatch ≠ some b → code = .notNext ∧ u.flip = s.flip)

/-- R194, R30: the STOP_BATCH of a granted place on a station with a number: for the next batch its bank
is RETIRED with no marks and every dirty sector on its erase list, sector 0 among them where its
mark is programmed (R21, log entry 57), ascending where the dirty sectors are so listed (the invariant
EveryStepKeepsTheTablesCanonical); its records leave the hold queue and the unstored list, a hold ends, and a STOP goes to the tail of the transmit queue; for any other batch
NOT_NEXT. -/
def Obligations.StopBatchDropsTheNextBatch : Prop :=
  ∀ (t : Micros) (body : List Byte) (rest : List Transaction) (s : State),
    s.inRun → s.notYielding → s.listenOnly = false → s.trunk.feedGrant = true → s.headIs .stopBatch body rest →
    let b := batchAt body 0
    ∃ u code, exec (.stopBatch t) s = .next u ∧ u.feed = s.feed.answered rest ⟨0x13, code, []⟩
      ∧ u.mem = s.mem
      ∧ (∀ i, s.bankIn .next = some i → (s.bank i).batch = some b →
          code = .done ∧ (u.bank i).role = .retired ∧ (u.bank i).marks = []
            ∧ (u.bank i).eraseList =
                (if (s.bank i).header = some .written ∨ 0 ∈ (s.bank i).eraseList then insertNat 0 (s.bank i).dirty
                else (s.bank i).dirty)
            ∧ (s.receiptsSound → (u.bank i).eraseList.Pairwise (· < ·))
            ∧ (∀ x ∈ (u.bank i).dirty, x ∈ (u.bank i).eraseList)
            ∧ (∀ k ∈ u.holdQueue, k.bank ≠ i) ∧ (∀ k ∈ u.unstored, k.bank ≠ i) ∧ u.flip.hold = none
            ∧ u.trunk.queue.getLast?.map QueuedFrame.frame = some (.stop b))
      ∧ (s.nextBatch ≠ some b → code = .notNext ∧ u.bankA = s.bankA ∧ u.bankB = s.bankB)

/-- R64, R184, R185, R182, R198: a batch command on a listen-only station in RUN is refused with
BAD_RANGE; a head judged BAD_LENGTH returns BAD_LENGTH in any phase, a directory write clearing the
latch (that a RESTART so judged places it is the model's choice, log entry 62); a well-formed head whose
result place, RUN or transmit place is lacking stays where it is. No bank, flip state or queued frame
changes. -/
def Obligations.HeadsAreRefusedOrWait : Prop :=
  ∀ (t : Micros) (lockN : Bool) (straps : Straps) (c : FeedCommand) (bytes : List Byte)
    (rest : List Transaction) (s : State), s.power = .on → s.notYielding →
    feedCommandOf (byteAt bytes 0) = some c →
    let stays := fun u : State => u.bankA = s.bankA ∧ u.bankB = s.bankB ∧ u.flip = s.flip
      ∧ u.trunk.queue.map QueuedFrame.frame = s.trunk.queue.map QueuedFrame.frame
    (s.feed.buffer = ⟨bytes, .wellFormed⟩ :: rest → s.feed.results.length < 4 → s.phase = .run →
        s.listenOnly = true → isBatchCommand c = true →
        ∃ u, exec (feedInstr t lockN straps c) s = .next u ∧ stays u
          ∧ u.feed = s.feed.answered rest ⟨c.code, .badRange, if c = .putRecords then [0, 0, 0] else []⟩)
      ∧ (s.feed.buffer = ⟨bytes, .badLength⟩ :: rest → s.feed.results.length < 4 →
        ∃ u, exec (feedInstr t lockN straps c) s = .next u ∧ stays u
          ∧ u.feed = s.feed.answered rest ⟨c.code, .badLength, []⟩
          ∧ u.dir.wel = (s.dir.wel && !isDirectoryWrite c))
      ∧ (s.feed.buffer = ⟨bytes, .wellFormed⟩ :: rest →
        (4 ≤ s.feed.results.length ∧ c ≠ .restart) ∨ (needsRun c = true ∧ s.phase ≠ .run)
          ∨ (isBatchCommand c = true ∧ s.phase = .run ∧ s.listenOnly = false ∧ s.trunk.feedGrant = false) →
        ∃ u, exec (feedInstr t lockN straps c) s = .next u ∧ stays u ∧ u.feed = s.feed
          ∧ u.dir.wel = s.dir.wel)

/-! ### Trunk reception -/

/-- R48, R50, R52, R53, R51: every frame that ends at the receiver with its source and fields in range is
accepted: the line is QUIET, frames received goes up by 1 to 65,535 at most, its source's row restarts,
the isolation ends and its timer restarts, and the duplicate alert is latched where the source is this
station's number. The flash, the feed port, the straps and the phase are left alone. -/
def Obligations.EveryAcceptedFrameIsHeard : Prop :=
  ∀ (t : Micros) (src : Byte) (f : Frame) (s : State), s.canReceive → stationFits src = true →
    frameFits f = true →
    ∃ u, exec (frameCommand t src f) s = .next u ∧ u.now = max s.now t ∧ u.trunk.line = .quiet
      ∧ u.counters.framesReceived = (if s.counters.framesReceived < 65535 then s.counters.framesReceived + 1
          else s.counters.framesReceived)
      ∧ u.counters.crcErrors = s.counters.crcErrors
      ∧ Sparse.get none u.trunk.sources src.toNat = some (max s.now t)
      ∧ (∀ n : Nat, n ≠ src.toNat → Sparse.get none u.trunk.sources n = Sparse.get none s.trunk.sources n)
      ∧ u.trunk.isolated = false ∧ u.trunk.isolationAt = some (max s.now t + 60000000)
      ∧ u.alerts.duplicate = (s.alerts.duplicate || src = s.station)
      ∧ (s.trunk.isolated = true → u.alerts.isolated = false)
      ∧ u.mem = s.mem ∧ u.dirFlash = s.dirFlash ∧ u.lockFlash = s.lockFlash ∧ u.feed = s.feed
      ∧ u.straps = s.straps ∧ u.phase = s.phase

/-- R50: a frame that ends at the receiver and is not accepted leaves the line QUIET and is counted in
CRC errors where it was truncated, had a wrong CRC or was malformed, and not where it was broken or had
no delimiter; nothing else changes, so it restarts no row and ends no isolation (R53). -/
def Obligations.DiscardedFramesAreOnlyCounted : Prop :=
  ∀ (t : Micros) (invalid : Bool) (bytes : List Byte) (s : State), s.canReceive →
    (∀ src f, judgeReception invalid bytes ≠ .accepted src f) →
    ∃ u, exec (.frameDiscarded t invalid bytes) s = .next u
      ∧ u = { s with
          now := max s.now t, trunk := { s.trunk with line := .quiet }
          counters := { s.counters with crcErrors := u.counters.crcErrors } }
      ∧ u.counters.crcErrors =
          (if judgeReception invalid bytes = .notDelimited ∨ judgeReception invalid bytes = .broken then
            s.counters.crcErrors
           else if s.counters.crcErrors < 65535 then s.counters.crcErrors + 1 else s.counters.crcErrors)

/-- R27, R28: an OPEN heard for a batch newer than both opens it as next with its record count and no
record held; for the next batch the larger count stands; for any other batch no bank changes. R30: a STOP
heard for the next batch retires its bank, which has no marks and its dirty sectors on its erase list,
sector 0 among them where its mark is programmed (R21, log entry 57), empties the hold queue and the unstored list of its records and ends a hold; a STOP for any other batch
leaves the banks, the hold queue and the coordinator alone. -/
def Obligations.OpenAndStopFramesMoveTheNextBatch : Prop :=
  (∀ (t : Micros) (src : Byte) (b : Batch) (n : BitVec 16) (rep : Bool) (s : State),
      s.canReceive → s.rolesSound → stationFits src = true → frameFits (.opening b n rep) = true →
      ∃ u, exec (.openFrame t src b n rep) s = .next u
        ∧ (s.newerThanBoth b = true → ∃ i, u.bankIn .next = some i ∧ (u.bank i).batch = some b
            ∧ (u.bank i).count = n.toNat ∧ (u.bank i).held = 0 ∧ u.liveBatch = s.liveBatch)
        ∧ (∀ i, s.bankIn .next = some i → (s.bank i).batch = some b →
            (u.bank i).count = max (s.bank i).count n.toNat ∧ (u.bank i).marks = (s.bank i).marks)
        ∧ (s.newerThanBoth b = false → s.nextBatch ≠ some b → u.bankA = s.bankA ∧ u.bankB = s.bankB))
    ∧ (∀ (t : Micros) (src : Byte) (b : Batch) (s : State), s.canReceive → stationFits src = true →
          ∃ u, exec (.stopFrame t src b) s = .next u
            ∧ (∀ i, s.bankIn .next = some i → (s.bank i).batch = some b →
                (u.bank i).role = .retired ∧ (u.bank i).marks = []
                  ∧ (u.bank i).eraseList = (if (s.bank i).header = some .written ∨ 0 ∈ (s.bank i).eraseList then
                      insertNat 0 (s.bank i).dirty else (s.bank i).dirty)
                  ∧ (∀ x ∈ (u.bank i).dirty, x ∈ (u.bank i).eraseList)
                  ∧ (∀ k ∈ u.holdQueue, k.bank ≠ i) ∧ (∀ k ∈ u.unstored, k.bank ≠ i) ∧ u.flip.hold = none
                  ∧ u.bank i.other = s.bank i.other)
            ∧ (s.nextBatch ≠ some b → u.bankA = s.bankA ∧ u.bankB = s.bankB ∧ u.holdQueue = s.holdQueue
                ∧ u.flip = s.flip))

/-- R29, R32, R26: a PRICE frame brings one valid record, of its own batch, number `n`. Above the bank's
T it is counted as beyond; where its mark is not MISSING it is counted as a duplicate; otherwise it is
taken: HELD in the hold queue where its sector awaits erase, or dropped where that is full, UNSTORED
where its slot is spoiled, and programmed where neither is so, STORED if the flash queue takes the
request at once and HELD if not. No other bank changes, and no byte of flash. -/
def Obligations.PriceFrameTakesTheRecord : Prop :=
  ∀ (t : Micros) (src : Byte) (b : Batch) (repair : Bool) (r : Record) (i : BankId) (s : State),
    s.canReceive → stationFits src = true → r.length = 32 → recValid r = true → recBatch r = b →
    s.bankOf b = some i →
    let n := recSeq r
    let k := s.bank i
    ∃ u, exec (.priceFrame t src b repair [r]) s = .next u ∧ u.bank i.other = s.bank i.other ∧ u.mem = s.mem
      ∧ (k.count < n → (u.bank i).beyond = (if k.beyond < 65535 then k.beyond + 1 else k.beyond)
          ∧ (u.bank i).marks = k.marks)
      ∧ (n ≤ k.count → (k.mark n).isSome = true →
          (u.bank i).duplicates = (if k.duplicates < 65535 then k.duplicates + 1 else k.duplicates)
            ∧ (u.bank i).marks = k.marks)
      ∧ (n ≤ k.count → k.mark n = none → sectorOf n ∈ k.eraseList → s.holdQueue.length < 64 →
          (u.bank i).mark n = some .held ∧ u.holdQueue = s.holdQueue ++ [⟨i, n, r⟩])
      ∧ (n ≤ k.count → k.mark n = none → sectorOf n ∈ k.eraseList → 64 ≤ s.holdQueue.length →
          (u.bank i).marks = k.marks ∧ u.holdQueue = s.holdQueue ∧ u.alerts.holdOverflow = true)
      ∧ (n ≤ k.count → k.mark n = none → sectorOf n ∉ k.eraseList → n ∈ k.spoiled → s.unstored.length < 16 →
          (u.bank i).mark n = some .unstored ∧ u.unstored = s.unstored ++ [⟨i, n, r⟩])
      ∧ (n ≤ k.count → k.mark n = none → sectorOf n ∉ k.eraseList → n ∉ k.spoiled →
          (s.flash.queue.length < 32 → s.flash.waiting = [] →
              (u.bank i).mark n = some .stored)
            ∧ (32 ≤ s.flash.queue.length → (u.bank i).mark n = some .held))

/-- R69, R70, R72: a DIGEST naming a next batch on a station that carries no batch, its want slots FREE,
makes slot 0 a header slot: numbers {0}, attempt 1, DELAYING for 20 to 200 ms. R68, R72: a DIGEST that
reports this station's next batch, as its next or, having flipped to it, as its live one, the want slots
FREE, whatever else it and the station carry: where the station's copy is incomplete and the peer holds more of it than this station, or all of its own T
(though that be no more than is held here, log entry 55), slot 0 takes the missing numbers, at most 63 in at
most four ranges, and waits 20 to 200 ms. R68, R70: where the peer's T is greater than the station's, the
first slot left is a header slot for it, with no gap trigger too (log entry 18), the next one where the copy
has its gap trigger (log entry 46); where neither is so nothing is asked of that batch. R68: for the live batch, which the peer may report as
live or as next, while it reports no next batch of this station's, slot 0 takes missing numbers likewise,
and no header is asked whatever the peer's T; where there is no gap trigger nothing is asked of it. -/
def Obligations.DigestFrameFillsAWantSlot : Prop :=
  (∀ (t : Micros) (src : Byte) (d : Digest) (b : Batch) (s : State),
      s.canReceive → stationFits src = true → frameFits (.digest d) = true → d.next = some b →
      s.bankIn .next = none → s.bankIn .live = none → (∀ k : Fin 8, s.slot k = none) →
      ∃ u wait, exec (.digestFrame t src d) s = .next u ∧ 20000 ≤ wait ∧ wait ≤ 200000
        ∧ u.slot 0 = some ⟨b, [0], 1, .delaying (max s.now t + wait)⟩ ∧ (∀ k : Fin 8, k ≠ 0 → u.slot k = none)
        ∧ u.bankA = s.bankA ∧ u.bankB = s.bankB)
    ∧ (∀ (t : Micros) (src : Byte) (d : Digest) (b : Batch) (i : BankId) (n held : Nat) (s : State),
          s.canReceive → stationFits src = true → frameFits (.digest d) = true → s.rolesSound →
          (d.next = some b ∧ n = d.nextCount.toNat ∧ held = d.nextHeld.toNat)
            ∨ (d.next ≠ some b ∧ d.live = some b ∧ n = d.liveCount.toNat ∧ held = d.liveHeld.toNat) →
          s.bankIn .next = some i → (s.bank i).batch = some b → (∀ k : Fin 8, s.slot k = none) →
          let gaps := (s.bank i).held ≠ (s.bank i).count ∧ (s.bank i).missing ≠ []
            ∧ ((s.bank i).held < held ∨ held = n)
          let enough := (s.bank i).held = (s.bank i).count ∨ (held ≤ (s.bank i).held ∧ held ≠ n)
          ∃ u, exec (.digestFrame t src d) s = .next u
            ∧ (enough → n ≤ (s.bank i).count → ∀ k w, u.slot k = some w → w.batch ≠ b)
            ∧ (gaps →
                ∃ w wait, u.slot 0 = some w ∧ w.batch = b ∧ w.attempt = 1
                  ∧ w.phase = .delaying (max s.now t + wait) ∧ 20000 ≤ wait ∧ wait ≤ 200000
                  ∧ w.numbers ≠ [] ∧ w.numbers.length ≤ 63 ∧ w.numbers <+: (s.bank i).missing
                  ∧ (toRanges w.numbers).length ≤ 4)
            ∧ (gaps → n ≤ (s.bank i).count →
                ∀ k w, u.slot k = some w → w.batch = b → k = 0)
            ∧ ((s.bank i).count < n → gaps ∨ enough →
                ∃ wait, 20000 ≤ wait ∧ wait ≤ 200000
                  ∧ (gaps → u.slot 1 = some ⟨b, [0], 1, .delaying (max s.now t + wait)⟩)
                  ∧ (enough → u.slot 0 = some ⟨b, [0], 1, .delaying (max s.now t + wait)⟩)))
    ∧ (∀ (t : Micros) (src : Byte) (d : Digest) (b : Batch) (i : BankId) (n held : Nat) (s : State),
          s.canReceive → stationFits src = true → frameFits (.digest d) = true →
          s.bankIn .live = some i → (s.bank i).batch = some b →
          (d.next = some b ∧ n = d.nextCount.toNat ∧ held = d.nextHeld.toNat)
            ∨ (d.next ≠ some b ∧ d.live = some b ∧ n = d.liveCount.toNat ∧ held = d.liveHeld.toNat) →
          (∀ x, s.nextBatch = some x → d.next ≠ some x ∧ d.live ≠ some x) → (∀ k : Fin 8, s.slot k = none) →
          ∃ u, exec (.digestFrame t src d) s = .next u
            ∧ ((s.bank i).held = (s.bank i).count ∨ (held ≤ (s.bank i).held ∧ held ≠ n) →
                ∀ k w, u.slot k = some w → w.batch ≠ b)
            ∧ ((s.bank i).held ≠ (s.bank i).count → (s.bank i).missing ≠ [] →
                (s.bank i).held < held ∨ held = n →
                (∃ w wait, u.slot 0 = some w ∧ w.batch = b ∧ w.attempt = 1
                  ∧ w.phase = .delaying (max s.now t + wait) ∧ 20000 ≤ wait ∧ wait ≤ 200000
                  ∧ w.numbers ≠ [] ∧ w.numbers.length ≤ 63 ∧ w.numbers <+: (s.bank i).missing
                  ∧ (toRanges w.numbers).length ≤ 4)
                ∧ ∀ k w, u.slot k = some w → w.batch = b → k = 0))

/-- R80: a WANT heard for a batch this station carries, with no answer list or run for it, fills a list
with the covered numbers in 1..T that are STORED or HELD, at most 63, and with the header flag where 0 is
covered, under a timer of 5 to 80 ms; where nothing can be given there is no list. -/
def Obligations.WantFrameFillsTheAnswerList : Prop :=
  ∀ (t : Micros) (src : Byte) (b : Batch) (rs : List (BitVec 16 × BitVec 16)) (i : BankId) (s : State),
    s.canReceive → stationFits src = true → frameFits (.want b rs) = true → s.bankOf b = some i →
    answerList? s b = none → answerRun? s b = none →
    let give := (coveredNumbers rs).filter fun n => 1 ≤ n && n ≤ (s.bank i).count
      && ((s.bank i).mark n = some .stored || (s.bank i).mark n = some .held)
    ∃ u wait, exec (.wantFrame t src b rs) s = .next u ∧ 5000 ≤ wait ∧ wait ≤ 80000
      ∧ u.repair.answers = (if give = [] ∧ covers rs 0 = false then s.repair.answers
          else s.repair.answers ++ [⟨b, give.take 63, covers rs 0, max s.now t + wait⟩])
      ∧ u.bankA = s.bankA ∧ u.bankB = s.bankB ∧ u.mem = s.mem

/-- R149: a FLIP heard for the next batch begins a hold of 3 s with a gap timer of 750 ms, or restarts
the gap timer of a running one, where the live phase is not SWAPPING; it is ignored and counted where it
is; a FLIP for a batch that is not the next one leaves the hold as it is. -/
def Obligations.FlipFrameStartsOrFeedsTheHold : Prop :=
  ∀ (t : Micros) (src : Byte) (b : Batch) (echo : Bool) (s : State), s.canReceive → stationFits src = true →
    ∃ u, exec (.flipFrame t src b echo) s = .next u ∧ u.bankA = s.bankA ∧ u.bankB = s.bankB
      ∧ u.flip.call = s.flip.call
      ∧ (s.nextBatch = some b → s.livePhase ≠ .swapping → s.flip.hold = none →
          u.flip.hold = some ⟨max s.now t + 3000000, max s.now t + 750000⟩)
      ∧ (∀ h, s.nextBatch = some b → s.livePhase ≠ .swapping → s.flip.hold = some h →
          u.flip.hold = some ⟨h.holdAt, max s.now t + 750000⟩)
      ∧ (s.nextBatch = some b → s.livePhase = .swapping →
          u.flip.hold = s.flip.hold ∧ u.counters.callsIgnored =
            (if s.counters.callsIgnored < 65535 then s.counters.callsIgnored + 1 else s.counters.callsIgnored))
      ∧ (s.nextBatch ≠ some b → u.flip.hold = s.flip.hold ∧ u.counters.callsIgnored = s.counters.callsIgnored)

/-- R177, R178: during LISTEN a CLAIM naming this station, or a DIGEST whose held partner is this station's
number and not 0, notes its source as the holder and moves no home side; a YIELD
naming it from that source cancels the trigger; in WAIT_RELEASE such a YIELD from any station puts all
four home rails in TAKING, with their 5 ms already running (that the lines read back asserted at once is
the model's choice, log entry 9); a CLAIM or YIELD that names another station changes no home side. -/
def Obligations.ClaimAndYieldReachTheHomeSide : Prop :=
  ∀ (t : Micros) (src partner : Byte) (s : State), s.canReceive → stationFits src = true →
    stationFits partner = true →
    ∃ u v, exec (.claimFrame t src partner) s = .next u ∧ exec (.yieldFrame t src partner) s = .next v
      ∧ u.adopt.home = s.adopt.home ∧ u.adopt.waitUntil = s.adopt.waitUntil
      ∧ u.adopt.trigger = (if partner = s.station ∧ s.phase = .listen then some src else s.adopt.trigger)
      ∧ (partner = s.station → s.adopt.waitUntil.isSome = true →
          (∀ k : Fin 4, v.adopt.home[k] = .taking (some (max s.now t + 5000))) ∧ v.adopt.waitUntil = none)
      ∧ (partner = s.station → s.adopt.waitUntil = none → s.phase = .listen → s.adopt.trigger = some src →
          v.adopt.trigger = none ∧ v.adopt.home = s.adopt.home)
      ∧ (partner ≠ s.station → v.adopt.home = s.adopt.home ∧ v.adopt.trigger = s.adopt.trigger)
      ∧ (∀ d : Digest, frameFits (.digest d) = true →
          ∃ w, exec (.digestFrame t src d) s = .next w ∧ w.adopt.home = s.adopt.home
            ∧ w.adopt.waitUntil = s.adopt.waitUntil
            ∧ w.adopt.trigger = (if d.heldPartner = s.station ∧ d.heldPartner ≠ 0 ∧ s.phase = .listen then some src
                else s.adopt.trigger))

/-! ### The line and the transmit queue -/

/-- R48, R57: 40 undriven bit times after QUIET the line is IDLE; a first driven bit of another station
makes it BUSY. In RUN a head with no count draws one below its window at the first, and a count that ran
freezes at the second, the slots passed subtracted. The frames of the queue keep their order. R57, R73: a
head whose count has run down on an IDLE line in RUN is transmitted: the line is BUSY, the frame stays
the head, and the slot of a WANT becomes SENDING. R46, R47, R201: in the bit times that follow the station
drives the bits of the frame's bytes, its own number the source, most significant bit first with no gap,
and after them nothing; not transmitting it drives nothing. R46, R58: it reads another level than it
drives where, and only where, another station drives too. -/
def Obligations.LineStateMovesTheHeadToTransmission : Prop :=
  (∀ (t : Micros) (s : State), s.power = .on → s.phase ≠ .scan →
      (s.trunk.line = .quiet → ∃ u, exec (.lineIdle t) s = .next u ∧ u.trunk.line = .idle (max s.now t)
          ∧ u.trunk.queue.map QueuedFrame.frame = s.trunk.queue.map QueuedFrame.frame
          ∧ (∀ h q, s.phase = .run → s.trunk.transmitting = false → s.trunk.counting = none →
              s.trunk.queue = h :: q → h.slots = none → 1 ≤ h.window →
              ∃ n, n < h.window ∧ u.trunk.queue = { h with slots := some n } :: q
                ∧ u.trunk.counting = some (max s.now t)))
        ∧ (∀ since, s.trunk.line = .idle since → ∃ u, exec (.lineBusy t) s = .next u ∧ u.trunk.line = .busy
          ∧ u.trunk.counting = none
          ∧ (∀ h q start n, s.trunk.counting = some start → s.trunk.queue = h :: q → h.slots = some n →
              u.trunk.queue = { h with
                slots := some (n - ((max s.now t - since) / 256 - (start - since) / 256)) } :: q)))
    ∧ (∀ (t since start : Micros) (n : Nat) (h : QueuedFrame) (q : List QueuedFrame) (s : State), s.inRun →
          s.trunk.transmitting = false → s.trunk.line = .idle since → s.trunk.counting = some start →
          s.trunk.queue = h :: q → h.slots = some n →
          n ≤ (max s.now t - since) / 256 - (start - since) / 256 →
          let wire := frameWire s.station h.frame
          ∃ u, exec (.transmitStart t) s = .next u ∧ u.trunk.transmitting = true ∧ u.trunk.line = .busy
            ∧ u.trunk.counting = none ∧ u.trunk.queue = { h with slots := none } :: q
            ∧ (∀ k w, h.tag = .want k → s.slot k = some w → u.slot k = some { w with phase := .sending })
            ∧ u.sentBytes = wire
            ∧ (∀ m : Nat, u.drives m = if m < 8 * wire.length then
                .ofBit ((byteAt wire (m / 8)).getLsbD (7 - m % 8)) else .undriven))
    ∧ (∀ (n : Nat) (ds : List Drive) (s : State),
          (s.trunk.transmitting = false → s.drives n = .undriven)
            ∧ (s.drives n ≠ .undriven → (s.mismatch n ds = true ↔ ∃ d ∈ ds, d ≠ .undriven)))

/-- R58: a collision ends the transmission and is counted. R58, R74: below the twelfth the frame stays the
head, its attempt count raised and its window doubled up to 512, or 64 for an urgent frame, the WANT of a slot
that has become FREE too (log entry 61); the slot of a WANT is QUEUED again and the frame follows its numbers, both gone where no number is left. R59, R74, R164:
at the twelfth it leaves the queue and is counted as dropped, and no producer but two acts: the slot of a
WANT waits 1 s, or is FREE; a CLAIM of a station that is CLAIMING is offered afresh, at the tail or behind
those that wait (log entry 33). R60: a transmission completes: the line is QUIET and the frame leaves the
queue, the others keeping their places, but that an OPEN heard so withdraws the header WANTs for its batch
(R70). R74, R79, R84, R164: a slot's WANT is counted and its slot waits 1 s, or is FREE, a WANT given up
meanwhile is counted too, an answer is counted as a GIVE, and a CLAIM starts the guard of 2 s. The frame
restarts no row and is not counted as received. R51, last column: no own frame reaches the batch log. An own
OPEN frees the header slots of its batch and clears the header flags of its answer list and run (R70, R81);
an own PRICE frame takes the numbers of its valid records off both (R81) and, for an incomplete next batch
in RUN, restarts the trailing-gap timer (R71); an own FLIP starts or feeds the hold, or is counted as
ignored (R149), or restarts the quiet timer of the echo for the live batch (R160). Of every other kind
nothing is handed on: coordinator, lists, runs and home side stay. -/
def Obligations.TransmissionsEndInCollisionOrCompletion : Prop :=
  (∀ (t : Micros) (h : QueuedFrame) (q : List QueuedFrame) (s : State), s.power = .on →
      s.trunk.transmitting = true → s.trunk.queue = h :: q →
      let backed := { h with
        attempts := h.attempts + 1
        window := min (2 * h.window) (if urgent h.frame then 64 else 512), slots := none }
      let waits := fun w : WantSlot =>
        if w.numbers = [] then none else some { w with phase := .waiting (max s.now t + 1000000) }
      ∃ u, exec (.collision t) s = .next u ∧ u.trunk.transmitting = false ∧ u.trunk.line = .quiet
        ∧ u.counters = { s.counters with
            collisions := bump s.counters.collisions
            framesDropped := if h.attempts < 11 then s.counters.framesDropped else bump s.counters.framesDropped }
        ∧ u.flip = s.flip ∧ u.adopt = s.adopt ∧ u.mem = s.mem
        ∧ ((∀ k w, h.tag = .want k → s.slot k ≠ some w) → u.repair = s.repair)
        ∧ (h.attempts < 11 → (∀ k w, h.tag = .want k → s.slot k ≠ some w) →
            u.trunk.queue = backed :: q ∧ u.trunk.waiters = s.trunk.waiters)
        ∧ (∀ k w, h.attempts < 11 → h.tag = .want k → s.slot k = some w → (∀ f ∈ q, f.tag ≠ .want k) →
            (w.numbers ≠ [] → u.slot k = some { w with phase := .queued }
                ∧ u.trunk.queue = { backed with frame := w.frame } :: q)
              ∧ (w.numbers = [] → u.slot k = none ∧ u.trunk.queue = q))
        ∧ (11 ≤ h.attempts → ¬(h.tag = .claim ∧ s.adopt.holder = .claiming ∧ s.listenOnly = false) →
            u.trunk.queue = q ∧ u.trunk.waiters = s.trunk.waiters)
        ∧ (∀ k w, 11 ≤ h.attempts → h.tag = .want k → s.slot k = some w → u.slot k = waits w)
        ∧ (11 ≤ h.attempts → h.tag = .claim → s.adopt.holder = .claiming → s.listenOnly = false →
            (placesTaken s ≤ 16 → s.trunk.waiters = [] →
                u.trunk.queue = q ++ [⟨.claim s.straps.ptn, .claim, 4, 0, none⟩])
              ∧ (16 < placesTaken s ∨ s.trunk.waiters ≠ [] →
                u.trunk.queue = q ∧ u.trunk.waiters = s.trunk.waiters ++ [.claim])))
    ∧ (∀ (t : Micros) (h : QueuedFrame) (q : List QueuedFrame) (s : State), s.power = .on →
          s.notYielding → s.trunk.transmitting = true → s.trunk.queue = h :: q →
          ∃ u, exec (.transmissionComplete t) s = .next u ∧ u.trunk.transmitting = false ∧ u.trunk.line = .quiet
            ∧ u.counters.framesReceived = s.counters.framesReceived ∧ u.trunk.sources = s.trunk.sources
            ∧ (u.trunk.queue.map QueuedFrame.frame).Sublist (q.map QueuedFrame.frame)
            ∧ ((∀ b n rep k w, h.frame = .opening b n rep → s.slot k = some w → w.batch = b → w.numbers ≠ [0]) →
                u.trunk.queue = q)
            ∧ u.counters.wantsSent = (match h.tag, h.frame with
                | .want _, _ => bump s.counters.wantsSent
                | .orphan, .want _ _ => bump s.counters.wantsSent
                | _, _ => s.counters.wantsSent)
            ∧ (∀ k w b rs, h.tag = .want k → h.frame = .want b rs → s.slot k = some w → u.slot k =
                if w.numbers = [] then none else some { w with phase := .waiting (max s.now t + 1000000) })
            ∧ u.counters.givesSent = (match h.tag with
                | .answer _ => bump s.counters.givesSent
                | _ => s.counters.givesSent)
            ∧ (h.tag = .claim → s.adopt.holder = .claiming → u.adopt.guardAt = some (max s.now t + 2000000))
            ∧ u.bankA = s.bankA ∧ u.bankB = s.bankB ∧ u.holdQueue = s.holdQueue ∧ u.unstored = s.unstored
            ∧ u.adopt.trigger = s.adopt.trigger ∧ u.adopt.home = s.adopt.home
            ∧ ((∀ b e, h.frame ≠ .flip b e) → u.flip = s.flip ∧ u.counters.callsIgnored = s.counters.callsIgnored)
            ∧ ((∀ b n rep, h.frame ≠ .opening b n rep) → (∀ b rep rs, h.frame ≠ .price b rep rs) →
                u.repair.answers = s.repair.answers ∧ u.repair.runs = s.repair.runs)
            ∧ ((∀ b rep rs, h.frame = .price b rep rs → s.nextBatch ≠ some b) → nextIncomplete s = true →
                u.repair.trailingAt = s.repair.trailingAt)
            ∧ (∀ b n rep, h.frame = .opening b n rep →
                (∀ k w, s.slot k = some w → w.batch = b → w.numbers = [0] → (∀ j, h.tag ≠ .want j) → u.slot k = none)
                  ∧ (∀ l, answerList? s b = some l → answerList? u b =
                      if l.numbers = [] then none else some { l with header := false })
                  ∧ (∀ r, answerRun? s b = some r → answerRun? u b =
                      if r.numbers = [] then none else some { r with header := false }))
            ∧ (∀ b rep rs, h.frame = .price b rep rs →
                let carried := (rs.filter fun r => recValid r && recBatch r = b).map recSeq
                (∀ l, answerList? s b = some l → l.numbers ≠ [] ∨ l.header = true →
                    let left := l.numbers.filter fun n => n ∉ carried
                    answerList? u b = if left = [] ∧ l.header = false then none else some { l with numbers := left })
                  ∧ (∀ r, answerRun? s b = some r → r.numbers ≠ [] ∨ r.header = true →
                    let left := r.numbers.filter fun n => n ∉ carried
                    answerRun? u b = if left = [] ∧ r.header = false then none else some { r with numbers := left })
                  ∧ (s.phase = .run → s.nextBatch = some b → nextIncomplete s = true →
                    u.repair.trailingAt = some (max s.now t + 1500000)))
            ∧ (∀ b echo, h.frame = .flip b echo →
                u.flip.call = s.flip.call
                  ∧ (s.nextBatch = some b → s.livePhase ≠ .swapping →
                    u.counters.callsIgnored = s.counters.callsIgnored ∧ u.flip.hold =
                      some ⟨(s.flip.hold.map Hold.holdAt).getD (max s.now t + 3000000), max s.now t + 750000⟩)
                  ∧ (s.nextBatch = some b → s.livePhase = .swapping → u.flip.hold = s.flip.hold
                    ∧ u.counters.callsIgnored = bump s.counters.callsIgnored)
                  ∧ (s.nextBatch ≠ some b → u.flip.hold = s.flip.hold
                    ∧ u.counters.callsIgnored = s.counters.callsIgnored)
                  ∧ (∀ e, s.nextBatch ≠ some b → s.liveBatch = some b → s.flip.echo = some e → e.batch = b →
                    ∃ quiet, 400000 ≤ quiet ∧ quiet ≤ 600000
                      ∧ u.flip.echo = some { e with quietAt := max s.now t + quiet })))

/-- R54, R73, R158, R160, R164, R185: a free place, by the places that `placesTaken` counts (log entry 33),
goes to the producer that has waited longest: the feed port holds it for its command (log entry 33), and a want slot's, a call's, an echo's, a claim's or a yield's frame joins at
the tail. R83, R84: an answer run's next frame is built at that moment: with a header answer an OPEN with the
repeat flag and the bank's T; with none, where no record of the seven lowest numbers is STORED, a PRICE frame
with the repair flag and those that are HELD, if any, and where one is, the reads of the STORED ones are
asked for and no frame joins yet (log entry 41). -/
def Obligations.FreePlaceGoesToTheFirstWaiter : Prop :=
  ∀ (t : Micros) (p : Producer) (ps : List Producer) (s : State), s.power = .on → s.trunk.waiters = p :: ps →
    placesTaken s < 16 →
    ∃ u, exec (.transmitPlaceGranted t) s = .next u
      ∧ (p = .feed → u.trunk.feedGrant = true ∧ u.trunk.waiters = ps
          ∧ u.trunk.queue.map QueuedFrame.frame = s.trunk.queue.map QueuedFrame.frame)
      ∧ (∀ k w, p = .want k → s.slot k = some w → u.trunk.waiters = ps
          ∧ u.trunk.queue.map QueuedFrame.frame = s.trunk.queue.map QueuedFrame.frame ++ [w.frame])
      ∧ (∀ c, p = .call → s.flip.call = some c → u.trunk.waiters = ps
          ∧ u.trunk.queue.map QueuedFrame.frame = s.trunk.queue.map QueuedFrame.frame ++ [.flip c.batch false])
      ∧ (∀ e, p = .echo → s.flip.echo = some e → u.trunk.waiters = ps
          ∧ u.trunk.queue.map QueuedFrame.frame = s.trunk.queue.map QueuedFrame.frame ++ [.flip e.batch true])
      ∧ (∀ b r i, p = .answer b → answerRun? s b = some r → s.bankOf b = some i →
          let stored := (r.numbers.take 7).filter fun n => (s.bank i).mark n = some .stored
          let held := ((r.numbers.take 7).filter fun n => (s.bank i).mark n = some .held).filterMap (s.record b)
          (r.header = true →
              s.trunk.queue.map QueuedFrame.frame ++ [.opening b (BitVec.ofNat 16 (s.bank i).count) true]
                <+: u.trunk.queue.map QueuedFrame.frame)
            ∧ (r.header = false → stored = [] → held ≠ [] →
              s.trunk.queue.map QueuedFrame.frame ++ [.price b true held] <+: u.trunk.queue.map QueuedFrame.frame)
            ∧ (r.header = false → stored ≠ [] →
              u.trunk.queue.map QueuedFrame.frame = s.trunk.queue.map QueuedFrame.frame
                ∧ ⟨b, (r.numbers.take 7).map (answerPart s b)⟩ ∈ u.repair.builds
                ∧ (∀ n ∈ stored, FlashOp.read .answer b n ∈ u.flash.queue ++ u.flash.waiting)))
      ∧ (p = .claim → u.trunk.waiters = ps
          ∧ u.trunk.queue.map QueuedFrame.frame = s.trunk.queue.map QueuedFrame.frame ++ [.claim s.straps.ptn])
      ∧ (p = .yield → u.trunk.waiters = ps
          ∧ u.trunk.queue.map QueuedFrame.frame = s.trunk.queue.map QueuedFrame.frame ++ [.yield s.straps.ptn])

/-- R55, R61, R62: the digest timer calls for a DIGEST of the present state: it replaces the content of
one queued and not in transmission, keeping its place, or joins at the tail while more places are free
than producers wait for (places counted as in log entry 33), and is otherwise not queued; the timer starts
again, for 2 to 2.5 s in the fast condition and 10 to 10.5 s in the slow one. R53: 60 s without an
accepted frame of another station isolate the station and latch the alert; nothing else changes. -/
def Obligations.DigestAndIsolationTimersAct : Prop :=
  (∀ (t : Micros) (s : State), s.inRun → s.listenOnly = false → s.trunk.transmitting = false →
      expired s.trunk.digestAt (s.at t) = true →
      ∃ u d, exec (.digestTimerExpiry t) s = .next u ∧ u.trunk.digestAt = some (max s.now t + d)
        ∧ (s.fast = true → 2000000 ≤ d ∧ d ≤ 2500000) ∧ (s.fast = false → 10000000 ≤ d ∧ d ≤ 10500000)
        ∧ ((s.trunk.queue.any fun f => f.tag = .digest) = true →
            u.trunk.queue.map QueuedFrame.frame = s.trunk.queue.map fun f =>
              if f.tag = .digest then .digest (digestNow s) else f.frame)
        ∧ ((s.trunk.queue.any fun f => f.tag = .digest) = false →
            placesTaken s + s.trunk.waiters.length < 16 →
            u.trunk.queue.map QueuedFrame.frame
              = s.trunk.queue.map QueuedFrame.frame ++ [.digest (digestNow s)])
        ∧ ((s.trunk.queue.any fun f => f.tag = .digest) = false →
            16 ≤ placesTaken s + s.trunk.waiters.length →
            u.trunk.queue.map QueuedFrame.frame = s.trunk.queue.map QueuedFrame.frame))
    ∧ (∀ (t : Micros) (s : State), s.power = .on → expired s.trunk.isolationAt (s.at t) = true →
          exec (.isolationTimerExpiry t) s = .next { s with
            now := max s.now t, trunk := { s.trunk with isolated := true, isolationAt := none }
            alerts := { s.alerts with isolated := true } })

/-! ### Want slots and answers -/

/-- R73, R54: a DELAYING slot's delay has passed: its WANT joins a queue with a free place and no waiting
producer (places counted as in log entry 33), and otherwise waits behind those that wait; the slot is
QUEUED; on a listen-only station it waits 1 s instead. R75, R72: a slot's 1 s wait has passed: with no
number left, or at attempt 8, it is FREE; otherwise it is DELAYING at the next attempt with the numbers of
its four lowest ranges, for 20 to 200 ms doubled with each attempt. The other slots and the queue are left
alone. -/
def Obligations.WantSlotTimersMoveTheSlot : Prop :=
  (∀ (t d : Micros) (k : Fin 8) (w : WantSlot) (s : State), s.power = .on → s.slot k = some w →
      w.phase = .delaying d → d ≤ max s.now t →
      ∃ u, exec (.wantDelayExpiry t k) s = .next u ∧ (∀ j : Fin 8, j ≠ k → u.slot j = s.slot j)
        ∧ (s.listenOnly = false → u.slot k = some { w with phase := .queued }
            ∧ (placesTaken s < 16 → s.trunk.waiters = [] →
                u.trunk.queue.map QueuedFrame.frame = s.trunk.queue.map QueuedFrame.frame ++ [w.frame]
                  ∧ u.trunk.waiters = [])
            ∧ (16 ≤ placesTaken s ∨ s.trunk.waiters ≠ [] → u.trunk.waiters = s.trunk.waiters ++ [.want k]
                ∧ u.trunk.queue.map QueuedFrame.frame = s.trunk.queue.map QueuedFrame.frame))
        ∧ (s.listenOnly = true → u.slot k = some { w with phase := .waiting (max s.now t + 1000000) }
            ∧ u.trunk.queue.map QueuedFrame.frame = s.trunk.queue.map QueuedFrame.frame))
    ∧ (∀ (t d : Micros) (k : Fin 8) (w : WantSlot) (s : State), s.power = .on → s.slot k = some w →
          w.phase = .waiting d → d ≤ max s.now t →
          ∃ u, exec (.wantWaitExpiry t k) s = .next u ∧ (∀ j : Fin 8, j ≠ k → u.slot j = s.slot j)
            ∧ u.trunk = s.trunk ∧ u.bankA = s.bankA ∧ u.bankB = s.bankB
            ∧ (w.numbers = [] ∨ 8 ≤ w.attempt → u.slot k = none)
            ∧ (w.numbers ≠ [] → w.attempt < 8 → ∃ wait,
                u.slot k = some ⟨w.batch, keepFour w.numbers, w.attempt + 1, .delaying (max s.now t + wait)⟩
                  ∧ 20000 * 2 ^ w.attempt ≤ wait ∧ wait ≤ 200000 * 2 ^ w.attempt))

/-- R71, R72: 1.5 s without one of its events, the trailing-gap timer is a gap trigger for the next batch
and does not restart: the lowest FREE slot takes missing numbers of it that no slot chases. R83, R64: a
batch's answer timer has run out: its list is gone and its run is sent, but by a listen-only station,
which sends nothing. A header answer goes out first, at the tail of the transmit queue, as an OPEN with
the repeat flag and the bank's T. R83, R84: with no header answer, nothing being built (log entries 33 and
41) and a place free with nobody waiting, a PRICE frame with the repair flag carries the records of the
seven lowest numbers: where none of them is STORED, those HELD, in ascending order, at once; where one is,
their reads are asked for, the rest of the numbers stay in the run, and when the last read comes back the
frame with every record returned goes to the tail. -/
def Obligations.TrailingGapAndAnswerTimersAct : Prop :=
  (∀ (t : Micros) (b : Batch) (i : BankId) (s : State), s.power = .on →
      expired s.repair.trailingAt (s.at t) = true → s.bankIn .next = some i → (s.bank i).batch = some b →
      (s.bank i).missing ≠ [] → (∀ k : Fin 8, s.slot k = none) →
      ∃ u w wait, exec (.trailingGapTimerExpiry t) s = .next u ∧ u.repair.trailingAt = none
        ∧ u.slot 0 = some w ∧ w.batch = b ∧ w.attempt = 1 ∧ w.phase = .delaying (max s.now t + wait)
        ∧ 20000 ≤ wait ∧ wait ≤ 200000 ∧ w.numbers ≠ [] ∧ w.numbers <+: (s.bank i).missing
        ∧ w.numbers.length ≤ 63 ∧ u.trunk = s.trunk ∧ u.mem = s.mem)
    ∧ (∀ (t : Micros) (b : Batch) (l : AnswerList) (s : State), s.power = .on → answerList? s b = some l →
          l.timer ≤ max s.now t →
          ∃ u, exec (.answerTimerExpiry t b) s = .next u ∧ answerList? u b = none
            ∧ (s.listenOnly = true → answerRun? u b = none
                ∧ u.trunk.queue.map QueuedFrame.frame = s.trunk.queue.map QueuedFrame.frame)
            ∧ (∀ i, s.listenOnly = false → answerRun? s b = none → s.repair.builds = [] →
                placesTaken s < 16 → s.trunk.waiters = [] → s.bankOf b = some i →
                let ns := l.numbers.foldl (fun ns n => insertNat n ns) []
                let stored := (ns.take 7).filter fun n => (s.bank i).mark n = some .stored
                let held := ((ns.take 7).filter fun n => (s.bank i).mark n = some .held).filterMap (s.record b)
                (l.header = true →
                    s.trunk.queue.map QueuedFrame.frame ++ [.opening b (BitVec.ofNat 16 (s.bank i).count) true]
                      <+: u.trunk.queue.map QueuedFrame.frame)
                  ∧ (l.header = false → stored = [] → held ≠ [] →
                    s.trunk.queue.map QueuedFrame.frame ++ [.price b true held]
                      <+: u.trunk.queue.map QueuedFrame.frame)
                  ∧ (l.header = false → stored ≠ [] →
                    u.trunk.queue.map QueuedFrame.frame = s.trunk.queue.map QueuedFrame.frame
                      ∧ u.repair.builds = [⟨b, (ns.take 7).map (answerPart s b)⟩]
                      ∧ (∀ n ∈ stored, FlashOp.read .answer b n ∈ u.flash.queue ++ u.flash.waiting)
                      ∧ (answerRun? u b).map AnswerRun.numbers
                          = if ns.drop 7 = [] then none else some (ns.drop 7))))
    ∧ (∀ (t : Micros) (b : Batch) (n : Nat) (ops : List FlashOp) (parts : List (Nat × Option (Option Record)))
          (s : State), s.power = .on → s.notYielding → s.flash.queue = .read .answer b n :: ops →
          serving s = true → expired s.flash.doneAt (s.at t) = true → s.flash.waiting = [] →
          s.repair.builds = [⟨b, parts⟩] → (∀ p ∈ parts, p.2 = none → p.1 = n) → (n, none) ∈ parts →
          let records := parts.filterMap fun p => match p.2 with
            | some r => r
            | none => s.record b p.1
          ∃ u, exec (.flashRequestDone t) s = .next u ∧ u.mem = s.mem
            ∧ (records ≠ [] → s.trunk.queue.map QueuedFrame.frame ++ [.price b true records]
                <+: u.trunk.queue.map QueuedFrame.frame))

/-! ### The flash engine -/

/-- R33, R65, section 2.2: the program in service finishes. One into the bank flash leaves each byte it
covers as the AND of the old byte and the new one and every other byte as it was; one into a directory
sector leaves its place with the article or mode and every other place as it was; a read leaves every
byte and place. -/
def Obligations.FinishedProgramIsInFlash : Prop :=
  ∀ (t : Micros) (op : FlashOp) (ops : List FlashOp) (s : State), s.power = .on → s.canonical →
    s.flash.queue = op :: ops → serving s = true → expired s.flash.doneAt (s.at t) = true →
    ∃ u, exec (.flashRequestDone t) s = .next u
      ∧ (∀ a bs, opBytes op = some (a, bs) → ∀ x : Nat, flashByte u.mem x =
          if a ≤ x ∧ x < a + bs.length then flashByte s.mem x &&& byteAt bs (x - a) else flashByte s.mem x)
      ∧ (opBytes op = none → ∀ x : Nat, flashByte u.mem x = flashByte s.mem x)
      ∧ (∀ n, Sparse.get PlaceContent.erased u.dirFlash n = match op with
          | .place m a _ => if n = m then .article a else Sparse.get .erased s.dirFlash n
          | _ => Sparse.get .erased s.dirFlash n)
      ∧ (∀ n, Sparse.get LockContent.erased u.lockFlash n = match op with
          | .lockPlace m x => if n = m then .mode x else Sparse.get .erased s.lockFlash n
          | _ => Sparse.get .erased s.lockFlash n)

/-- R34: a request that takes a place of the queue while an erase runs sets the suspension of the erase to
25 µs later; one that comes while that has been set or has taken effect is queued. So it is with the reads
an answer run asks for when its list's timer has run out (R83, R84). 25 µs after the request the erase stops
with the time it still has to run, and the request queue is served from its head. No byte of flash changes.
-/
def Obligations.EraseIsSuspendedForRequests : Prop :=
  (∀ (op : FlashOp) (target : EraseTarget) (phase : ErasePhase) (s : State),
      s.flash.erase = some ⟨target, phase⟩ → s.flash.queue.length < 32 → s.flash.waiting = [] →
      (flashRequest op s).flash.queue = s.flash.queue ++ [op]
        ∧ (flashRequest op s).flash.erase = some ⟨target, match phase with
          | .running ends => .suspending ends (s.now + 25)
          | phase => phase⟩
        ∧ (flashRequest op s).mem = s.mem)
    ∧ (∀ (t ends : Micros) (target : EraseTarget) (b : Batch) (i : BankId) (n : Nat) (l : AnswerList) (s : State),
      s.power = .on → s.flash.erase = some ⟨target, .running ends⟩ → s.flash.queue.length < 32 →
      s.flash.waiting = [] → answerList? s b = some l → l.timer ≤ max s.now t → l.header = false →
      l.numbers = [n] → s.bankOf b = some i → (s.bank i).mark n = some .stored → s.listenOnly = false →
      answerRun? s b = none → s.repair.builds = [] → placesTaken s < 16 → s.trunk.waiters = [] →
      ∃ u, exec (.answerTimerExpiry t b) s = .next u ∧ u.flash.queue = s.flash.queue ++ [.read .answer b n]
        ∧ u.flash.erase = some ⟨target, .suspending ends (max s.now t + 25)⟩
        ∧ u.flash.doneAt = s.flash.doneAt ∧ u.mem = s.mem)
    ∧ ∀ (t ends at_ : Micros) (target : EraseTarget) (op : FlashOp) (ops : List FlashOp) (s : State),
    s.power = .on → s.flash.erase = some ⟨target, .suspending ends at_⟩ → at_ ≤ max s.now t → at_ < ends →
    s.flash.queue = op :: ops → s.flash.doneAt = none →
    exec (.eraseSuspend t) s = .next { s with
      now := max s.now t
      flash := { s.flash with
        erase := some ⟨target, .suspended (ends - at_)⟩, doneAt := some (max s.now t + opTime op) } }

/-- R21, R36, R38, R23: the erase of a bank sector has run its 40 ms: every byte of the sector reads
erased and every other byte of the bank flash is kept. Where no program for an earlier batch is asked into
it, the sector is off the erase list, and clean where nothing is asked into it at all; its records leave the
hold queue and the program of each is asked for; a WAITING header whose sector 0 this is is WRITTEN, and its
program asked for. Where such a program is asked into it still, the sector stays to be erased again, its
records held and its header waiting (log entry 57). A retired bank loses its header. R110: the erase of the
entries sector has run its 40 ms: no place is left in it, and the articles held in RAM, less those to be
cleared, are its program list; after the lock sector's erase the present stored mode is asked into a lock
place (log entry 19). The other sectors are kept. -/
def Obligations.CompletedErasesLeaveErasedSectors : Prop :=
  (∀ (t ends : Micros) (i : BankId) (n : Nat) (s : State), s.power = .on →
      s.flash.erase = some ⟨.sector i n, .running ends⟩ → ends ≤ max s.now t →
      let k := s.bank i
      let earlier := fun op : FlashOp => op.sectorIn i = some n ∧ k.ownsProgram op = false
      ∃ u, exec (.sectorEraseComplete t) s = .next u
        ∧ (∀ x : Nat, flashByte u.mem x = if inSector i n x then 0xFF#8 else flashByte s.mem x)
        ∧ ((∀ op ∈ s.flash.queue ++ s.flash.waiting, ¬earlier op) →
            n ∉ (u.bank i).eraseList ∧ (∀ x ∈ u.holdQueue, x.bank = i → sectorOf x.seq ≠ n)
              ∧ (∀ x ∈ s.holdQueue, x.bank = i → sectorOf x.seq = n →
                  FlashOp.record i (k.batch.getD 0) x.seq x.record ∈ u.flash.queue ++ u.flash.waiting)
              ∧ (n = 0 → k.header = some .waiting → (u.bank i).header = some .written
                  ∧ FlashOp.header i (k.batch.getD 0) k.count (k.role = .live) ∈ u.flash.queue ++ u.flash.waiting)
              ∧ ((∀ x ∈ s.holdQueue, x.bank = i → sectorOf x.seq ≠ n) → k.header ≠ some .waiting →
                  (∀ op ∈ s.flash.queue, op.sectorIn i ≠ some n) → n ∉ (u.bank i).dirty))
        ∧ ((∃ op ∈ s.flash.queue ++ s.flash.waiting, earlier op) → n ∈ k.eraseList →
            (u.bank i).eraseList = k.eraseList ∧ u.holdQueue = s.holdQueue
              ∧ (k.header = some .waiting → (u.bank i).header = some .waiting))
        ∧ ((∃ op ∈ s.flash.queue, op.sectorIn i = some n) → n ∈ (u.bank i).dirty)
        ∧ (n = 0 → k.role = .retired → k.header ≠ some .waiting → (u.bank i).header = none)
        ∧ u.dirFlash = s.dirFlash ∧ u.lockFlash = s.lockFlash ∧ u.bank i.other = s.bank i.other)
    ∧ (∀ (t ends : Micros) (s : State), s.power = .on → ends ≤ max s.now t →
          (s.flash.erase = some ⟨.entries, .running ends⟩ → s.dir.rewriteAgain = false → s.dir.lockAgain = false →
              programList s ≠ [] →
              ∃ u, exec (.directoryEraseComplete t) s = .next u ∧ u.dirFlash = [] ∧ u.lockFlash = s.lockFlash
                ∧ u.mem = s.mem
                ∧ (∀ p ∈ programList s, FlashOp.place p.1 p.2 true ∈ u.flash.queue ++ u.flash.waiting))
            ∧ (s.flash.erase = some ⟨.lock, .running ends⟩ → s.dir.rewriteAgain = false →
              ∃ u, exec (.directoryEraseComplete t) s = .next u ∧ u.lockFlash = [] ∧ u.dirFlash = s.dirFlash
                ∧ u.mem = s.mem ∧ u.dir.lockUsed = 1
                ∧ ∃ p, FlashOp.lockPlace p s.dir.storedMode ∈ u.flash.queue ++ u.flash.waiting))

/-! ### Rails and sessions -/

/-- R124, R125: how a proving goes on or ends. Refused by address at LOOP_ON it leaves the rail DEGRADED;
failing otherwise before LOOP_OFF, DEAD; after LOOP_OFF the worst window decides: 8 or more mismatched
bits DEAD, 2 to 7 DEGRADED, fewer PROVEN. A DEAD rail latches the rail-dead alert and is proved again
after 60 s. Until then each session that ends DONE leads to the next. R123: after a PATTERN_READ of 64
bytes the worst is the greatest of itself and the counts of mismatched bits in the eight windows of 64
bits, taken against the block's pattern; no other session changes it. -/
def Obligations.ProvingGivesTheRailState : Prop :=
  ∀ (t : Micros) (k : Fin 4) (e : SessionEnd) (read : List Byte) (r : Fin 8) (v : Proving) (s : State),
    s.power = .on → s.notYielding →
    (s.engine k).activity = .session r (.job .prove) 0 none → engineOf r = k → (s.rail r).proving = some v →
    ∃ u, exec (.provingSessionEnd t k e read) s = .next u
      ∧ (v.step = 0 → e = .addressRefused → (u.rail r).state = .degraded)
      ∧ (v.step < 9 → e ≠ .done → ¬(v.step = 0 ∧ e = .addressRefused) → (u.rail r).state = .dead)
      ∧ (9 ≤ v.step → (u.rail r).state = if 8 ≤ v.worst then .dead else if 2 ≤ v.worst then .degraded else .proven)
      ∧ (v.step < 9 → e = .done → (u.rail r).state = (s.rail r).state
          ∧ ∃ v', (u.rail r).proving = some v' ∧ v'.step = v.step + 1 ∧ v'.began = v.began
            ∧ (v.step % 2 = 1 ∨ v.step = 0 → v'.worst = v.worst)
            ∧ (v.step % 2 = 0 → v.step ≠ 0 → read.length = 64 →
                let wrong := fun w : Nat => ((List.range 64).filter fun x =>
                  (bitsOf read)[64 * w + x]? ≠ (blockBits (v.step / 2 - 1))[64 * w + x]?).length
                v.worst ≤ v'.worst ∧ (∀ w : Nat, w < 8 → wrong w ≤ v'.worst)
                  ∧ (v'.worst = v.worst ∨ ∃ w : Nat, w < 8 ∧ v'.worst = wrong w)))
      ∧ ((u.rail r).state = .dead → (s.rail r).state ≠ .dead →
          u.alerts.railDead = true ∧ (u.rail r).reproveAt = some (max s.now t + 60000000))
      ∧ u.mem = s.mem ∧ u.feed = s.feed

/-- R132, R133: the sessions of CENSUS and REVISIT jobs end. An IDENT that ends DONE ends its job. At a
home rail the entry keeps its article and takes the serial; where the label's article is another the
directory-mismatch alert is latched, and an entry with an article asks for an ASSIGN. R169, R101: at a
cross rail the label's article stands; an entry without one stays so where the label has none, takes the
code it reports into service otherwise, and is one the open census gave an article (R170); an entry loses
its article with every job but CENSUS where the label reports none (log entry 47). A STATUS that finds the
label SHOWING makes the IDENT due at once. REFRESHING, it makes the job identity-due in 500 ms; an entry with
an article is SWAPPING from then with no swap record and a POLL due in 500 ms, delivered once; nothing else
is reported, and the state stays but for a PRELOAD that opens now. An identity-due job that still waits, no
session of it running (log entry 36), 10 s after its first STATUS, the end of the first that ended DONE (log
entry 23), leaves the list, and latches the
directory-mismatch alert at a home position without an article. -/
def Obligations.InquiryDeliversItsReport : Prop :=
  (∀ (t : Micros) (kind : JobKind) (i : Instr) (k : Fin 4) (r : Fin 8) (p : Fin 64) (j : Job)
      (st : StatusAnswer) (id : IdentAnswer) (s : State),
      (kind = .census ∧ i = .censusSessionEnd t k .done (.ident id))
        ∨ (kind = .revisit ∧ i = .revisitSessionEnd t k .done (.ident id)) →
      s.carries k kind r p j → s.canonical → s.workSound → s.notYielding → j.answered = some st →
      st.state = .showing → (s.entry (slotOf r p)).clearWaiting = false →
      let e := s.entry (slotOf r p)
      ∃ u, exec i s = .next u ∧ (u.rail r).job? kind p = none ∧ u.mem = s.mem ∧ u.feed = s.feed
        ∧ u.flip = s.flip
        ∧ (isCross r = false →
            (u.entry (slotOf r p)).serial = some id.serial ∧ (u.entry (slotOf r p)).attempts = 0
              ∧ (u.entry (slotOf r p)).article = e.article
              ∧ (e.article ≠ identCode id → u.alerts.mismatch = true ∧ (u.entry (slotOf r p)).mismatch = true)
              ∧ (e.article = none → u.alerts.mismatch = true)
              ∧ (e.article.isSome = true → (u.entry (slotOf r p)).shown = st.shown
                  ∧ (u.entry (slotOf r p)).state ≠ .absent ∧ (u.entry (slotOf r p)).state ≠ .faulted)
              ∧ (e.article.isSome = true → e.article ≠ identCode id →
                  ∃ j' ∈ (u.rail r).work, j'.kind = .assign ∧ j'.pos = p))
        ∧ (isCross r = true → (s.rail r).enabled = true →
            (u.entry (slotOf r p)).serial = some id.serial ∧ (u.entry (slotOf r p)).article = identCode id
              ∧ u.alerts.mismatch = s.alerts.mismatch
              ∧ (identCode id ≠ none → (u.entry (slotOf r p)).attempts = 0
                  ∧ (u.entry (slotOf r p)).shown = st.shown ∧ (u.entry (slotOf r p)).state ≠ .vacant
                  ∧ (u.entry (slotOf r p)).state ≠ .absent ∧ (u.entry (slotOf r p)).state ≠ .faulted)
              ∧ (e.article = none → identCode id ≠ none → (u.rail r).censusOpen = true →
                  slotOf r p ∈ (u.rail r).gave)
              ∧ (e.article = none → identCode id = none → (u.entry (slotOf r p)).state = e.state)
              ∧ (e.article.isSome = true → identCode id = none →
                  u.entry (slotOf r p) = { Entry.vacant with serial := some id.serial }
                    ∧ ∀ j' ∈ (u.rail r).work, j'.pos = p → j'.kind = .census ∨ j'.kind = .prove)))
    ∧ (∀ (t : Micros) (kind : JobKind) (i : Instr) (k : Fin 4) (r : Fin 8) (p : Fin 64) (j : Job)
          (st : StatusAnswer) (s : State),
          (kind = .census ∧ i = .censusSessionEnd t k .done (.status st))
            ∨ (kind = .revisit ∧ i = .revisitSessionEnd t k .done (.status st)) →
          s.carries k kind r p j → s.canonical → s.workSound → s.notYielding → j.answered = none →
          let e := s.entry (slotOf r p)
          let first := j.firstStatus.getD (max s.now t)
          ∃ u, exec i s = .next u ∧ u.mem = s.mem ∧ u.feed = s.feed
            ∧ (st.state = .showing → ∃ j', (u.rail r).job? kind p = some j' ∧ j'.answered = some st
                ∧ j'.due = none ∧ j'.firstStatus = some first ∧ (u.entry (slotOf r p)).article = e.article
                ∧ ((u.entry (slotOf r p)).state = e.state
                  ∨ (e.state = .staged ∧ (u.entry (slotOf r p)).state = .preloading)))
            ∧ (st.state = .refreshing → j.identityDue = false ∨ max s.now t < first + 10000000 →
                ∃ j', (u.rail r).job? kind p = some j' ∧ j'.identityDue = true ∧ j'.answered = none
                  ∧ j'.due = some (max s.now t + 500000) ∧ j'.firstStatus = some first
                  ∧ j'.delivered = (j.delivered || (!j.identityDue && e.article.isSome)))
            ∧ (st.state = .refreshing → j.identityDue = false → e.article.isSome = true →
                (u.entry (slotOf r p)).state = .swapping
                  ∧ (u.entry (slotOf r p)).refreshStart = some (max s.now t)
                  ∧ (u.entry (slotOf r p)).swapRecord = none ∧ (u.entry (slotOf r p)).shown = st.shown
                  ∧ (u.entry (slotOf r p)).article = e.article ∧ (u.entry (slotOf r p)).serial = e.serial
                  ∧ ∃ j' ∈ (u.rail r).work, j'.kind = .poll ∧ j'.pos = p ∧ j'.due = some (max s.now t + 500000))
            ∧ (st.state = .refreshing → e.article = none ∨ j.identityDue = true →
                max s.now t < first + 10000000 → u.alerts = s.alerts
                  ∧ (u.entry (slotOf r p)).article = e.article ∧ (u.entry (slotOf r p)).serial = e.serial
                  ∧ ((u.entry (slotOf r p)).state = e.state
                    ∨ (e.state = .staged ∧ (u.entry (slotOf r p)).state = .preloading))))
    ∧ (∀ (t first : Micros) (r : Fin 8) (kind : JobKind) (p : Fin 64) (j : Job) (s : State), s.power = .on →
          s.notYielding → kind = .census ∨ kind = .revisit → (s.rail r).job? kind p = some j →
          j.identityDue = true → j.running = false → j.answered = none → j.firstStatus = some first →
          first + 10000000 ≤ max s.now t →
          ∃ u, exec (.identityDueTimeout t r kind p) s = .next u ∧ (u.rail r).job? kind p = none
            ∧ ((s.entry (slotOf r p)).article = none → isCross r = false → u.alerts.mismatch = true)
            ∧ ((s.entry (slotOf r p)).article ≠ none ∨ isCross r = true → u.alerts = s.alerts)
            ∧ u.counters = s.counters ∧ u.mem = s.mem)

/-- With no entry waiting for a walk pass: R140, R141: a SWAP of a PRELOADED entry ends DONE: the entry is
SWAPPING from this moment, its pending record is the swap record, and its POLL falls due in 500 ms. R142,
R143, R144: a POLL of a SWAPPING entry with a swap record ends DONE. Showing the record's batch the label
has swapped: its shown batch is taken, the missed and mismatch flags clear and swaps done goes up; showing
another, the entry leaves SWAPPING and no swap is counted; REFRESHING within 10 s of the refresh start it
stays SWAPPING, polled again in 500 ms; after 10 s it is FAULTED, the entry-fault alert is latched and label
faults goes up. Both hold of a session whose job was withdrawn too (R173, log entry 14). R121, R132, R145: the
refusal check of a job still on the list, a PRELOAD, an ASSIGN, the IDENT of a CENSUS or REVISIT, or the SWAP of
a PRELOADED entry, ends DONE with the label REFRESHING: the job is eligible 500 ms later, and nothing is
counted. R128, R121, R132: the due time of a POLL of a SWAPPING entry,
a REVISIT, an identity-due job or a refused job passes: its job has no due time left, and stays listed
(a PRELOAD or SWAP where its engine is busy; an idle one takes it up, R135, R136). -/
def Obligations.SwapsPollsAndRetriesRunInTime : Prop :=
  (∀ (t : Micros) (k : Fin 4) (r : Fin 8) (p : Fin 64) (s : State), s.power = .on → engineOf r = k →
      s.notYielding → s.noneToRestage →
      ((∃ record, (s.engine k).activity = .session r (.job .swap) p record) →
        (s.entry (slotOf r p)).state = .preloaded →
        ∃ u, exec (.swapSessionEnd t k .done) s = .next u ∧ (u.entry (slotOf r p)).state = .swapping
          ∧ (u.entry (slotOf r p)).refreshStart = some (max s.now t)
          ∧ (u.entry (slotOf r p)).swapRecord = (s.entry (slotOf r p)).pending
          ∧ (u.rail r).job? .swap p = none
          ∧ (∃ j' ∈ (u.rail r).work, j'.kind = .poll ∧ j'.pos = p ∧ j'.due = some (max s.now t + 500000))
          ∧ u.counters = s.counters ∧ u.mem = s.mem)
      ∧ (∀ t0 w st, (∃ record, (s.engine k).activity = .session r (.job .poll) p record) →
        (s.entry (slotOf r p)).state = .swapping → (s.entry (slotOf r p)).clearWaiting = false →
        (s.entry (slotOf r p)).swapRecord = some w → (s.entry (slotOf r p)).refreshStart = some t0 →
        (s.entry (slotOf r p)).article.isSome = true →
        ∃ u, exec (.pollSessionEnd t k .done (.status st)) s = .next u
          ∧ (st.state = .showing → st.shown = some w.batch →
              (u.entry (slotOf r p)).shown = some w.batch ∧ (u.entry (slotOf r p)).missed = false
                ∧ (u.entry (slotOf r p)).mismatch = false ∧ (u.entry (slotOf r p)).state ≠ .swapping
                ∧ u.counters.swapsDone = bump s.counters.swapsDone)
          ∧ (st.state = .showing → st.shown ≠ some w.batch →
              (u.entry (slotOf r p)).shown = st.shown ∧ (u.entry (slotOf r p)).state ≠ .swapping
                ∧ u.counters.swapsDone = s.counters.swapsDone)
          ∧ (st.state = .refreshing → max s.now t < t0 + 10000000 →
              (u.entry (slotOf r p)).state = .swapping ∧ u.counters = s.counters
                ∧ ∃ j' ∈ (u.rail r).work, j'.kind = .poll ∧ j'.pos = p ∧ j'.due = some (max s.now t + 500000))
          ∧ (st.state = .refreshing → t0 + 10000000 ≤ max s.now t →
              (u.entry (slotOf r p)).state = .faulted ∧ u.alerts.entryFault = true
                ∧ u.counters.labelFaults = bump s.counters.labelFaults)))
    ∧ (∀ (t : Micros) (k : Fin 4) (kind : JobKind) (r : Fin 8) (p : Fin 64) (j : Job) (shown : Option Batch)
          (page : Option (Batch × BitVec 16)) (s : State), s.power = .on → s.notYielding → s.noneToRestage →
          engineOf r = k → (∃ record, (s.engine k).activity = .session r (.refusalCheck kind) p record) →
          (kind = .preload ∨ kind = .assign ∨ kind = .census ∨ kind = .revisit
            ∨ (kind = .swap ∧ (s.entry (slotOf r p)).state = .preloaded)) →
          (s.rail r).job? kind p = some j → j.refused = true →
          ∃ u, exec (.refusalCheckEnd t k .done (.status ⟨.refreshing, shown, page⟩)) s = .next u
            ∧ (∃ j', (u.rail r).job? kind p = some j' ∧ j'.refused = false
                ∧ j'.due = some (max s.now t + 500000))
            ∧ u.counters = s.counters ∧ u.alerts = s.alerts)
    ∧ (∀ (t d : Micros) (r : Fin 8) (kind : JobKind) (p : Fin 64) (j : Job) (i : Instr) (s : State),
          s.power = .on → s.notYielding → s.noneToRestage → (s.rail r).job? kind p = some j → j.due = some d →
          d ≤ max s.now t →
          (kind = .poll ∧ i = .pollDue t r p ∧ (s.entry (slotOf r p)).state = .swapping)
            ∨ (kind = .revisit ∧ i = .revisitDue t r p)
            ∨ ((kind = .census ∨ kind = .revisit) ∧ i = .identityDue t r kind p)
            ∨ ((kind = .census ∨ kind = .revisit ∨ kind = .assign ∨ kind = .preload ∨ kind = .swap)
                ∧ i = .refusedJobRetry t r kind p) →
          ∃ u, exec i s = .next u ∧ u.mem = s.mem ∧ u.feed = s.feed
            ∧ (∀ j', (u.rail r).job? kind p = some j' →
                j'.due = none ∧ j'.identityDue = j.identityDue ∧ j'.refused = j.refused)
            ∧ ((kind ≠ .preload ∧ kind ≠ .swap) ∨ (s.engine (engineOf r)).activity ≠ .idle →
                ((u.rail r).job? kind p).isSome = true))

/-- R29, R92: a PRICE frame brings one record of a carried batch that is taken, number `n` of article `a`:
it is staged onto every entry with that article that is neither VACANT nor waiting to be cleared (log entry
30). R93: with no pending record, or a lower number of the same batch, it becomes the pending record, with
the face check of its face, the entry's face flags follow the face, and CURRENT, STAGED and PRELOADED
entries become STAGED (or PRELOADING, their engine being idle), while PRELOADING and SWAPPING ones keep
their state; a number not above the pending one has no effect; a next record under a live pending one is
deferred, the larger number standing; a live record over a next pending one takes its place and defers its
number. R94: an ABSENT or FAULTED entry combines so with no face and no change of state. No other entry's
records change. -/
def Obligations.PriceRecordIsStagedOntoItsEntries : Prop :=
  ∀ (t : Micros) (src : Byte) (b : Batch) (repair : Bool) (bytes : Record) (x : PriceRecord) (i : BankId)
    (s : State), s.canReceive → s.canonical → s.rolesSound → s.noneToRestage → s.notYielding →
    stationFits src = true → src ≠ s.straps.ptn → bytes.length = 32 → judgeRecord bytes = .ok x →
    x.batch = b → s.bankOf b = some i → x.seq ≤ (s.bank i).count → (s.bank i).mark x.seq = none →
    sectorOf x.seq ∉ (s.bank i).eraseList → x.seq ∉ (s.bank i).spoiled →
    ∃ u, exec (.priceFrame t src b repair [bytes]) s = .next u ∧ ∀ m : Nat,
      let e := s.entry m
      let v := u.entry m
      let staged := v.pending = some ⟨b, x.seq, if e.state = .absent ∨ e.state = .faulted then none
          else some (compose x).check⟩
        ∧ (e.state = .absent ∨ e.state = .faulted ∨ e.state = .preloading ∨ e.state = .swapping →
            v.state = e.state)
        ∧ (e.state = .current ∨ e.state = .staged ∨ e.state = .preloaded →
            v.state = .staged ∨ v.state = .preloading)
        ∧ (e.state ≠ .absent → e.state ≠ .faulted → v.markdownVoid = (compose x).markdownVoid
            ∧ v.multiVoid = (compose x).multiVoid ∧ v.unitOver = (compose x).unitOver)
      let kept := v.pending = e.pending
        ∧ (v.state = e.state ∨ (e.state = .staged ∧ v.state = .preloading))
        ∧ v.markdownVoid = e.markdownVoid ∧ v.multiVoid = e.multiVoid ∧ v.unitOver = e.unitOver
      if takesArticle x.article e = false then kept ∧ v.deferred = e.deferred
      else match e.pending with
        | none => staged ∧ v.deferred = e.deferred
        | some p =>
          if p.batch = b then (if x.seq ≤ p.seq then kept ∧ v.deferred = e.deferred
            else staged ∧ v.deferred = e.deferred)
          else if s.liveBatch = some p.batch then kept ∧ v.deferred = some (max (e.deferred.getD 0) x.seq)
          else if s.nextBatch = some p.batch then staged ∧ v.deferred = some p.seq
          else kept ∧ v.deferred = e.deferred

/-- R138: a PRELOAD session of a PRELOADING entry ends. DONE with the pending record it was opened for,
the entry is PRELOADED and preloads done goes up; DONE with another pending record, or any other outcome,
leaves preloads done as it was and the entry not PRELOADED. R137: an ASSIGN session ends DONE: the job
leaves the list, the attempt count is 0, and the entry's article and serial, the counters and the alerts
stand; a SWAPPING entry stays SWAPPING. -/
def Obligations.PreloadAndAssignSessionsEnd : Prop :=
  (∀ (t : Micros) (k : Fin 4) (r : Fin 8) (p : Fin 64) (x : PendingRecord) (record : Batch × Nat)
      (e : SessionEnd) (s : State), s.power = .on → s.notYielding → engineOf r = k →
      (s.engine k).activity = .session r (.job .preload) p (some record) →
      s.noneToRestage → (s.entry (slotOf r p)).state = .preloading → (s.entry (slotOf r p)).pending = some x →
      ∃ u, exec (.preloadSessionEnd t k e) s = .next u
        ∧ (e = .done → (x.batch, x.seq) = record → (u.entry (slotOf r p)).state = .preloaded
            ∧ u.counters.preloadsDone = (if s.counters.preloadsDone < 65535 then s.counters.preloadsDone + 1
                else s.counters.preloadsDone))
        ∧ (e ≠ .done ∨ (x.batch, x.seq) ≠ record → u.counters.preloadsDone = s.counters.preloadsDone
            ∧ (u.entry (slotOf r p)).state ≠ .preloaded))
    ∧ (∀ (t : Micros) (k : Fin 4) (r : Fin 8) (p : Fin 64) (j : Job) (s : State), s.carries k .assign r p j →
          isCross r = false → (s.entry (slotOf r p)).article.isSome = true →
          ∃ u, exec (.assignSessionEnd t k .done) s = .next u ∧ (u.rail r).job? .assign p = none
            ∧ (u.entry (slotOf r p)).attempts = 0
            ∧ (u.entry (slotOf r p)).article = (s.entry (slotOf r p)).article
            ∧ (u.entry (slotOf r p)).serial = (s.entry (slotOf r p)).serial
            ∧ ((s.entry (slotOf r p)).state = .swapping → (u.entry (slotOf r p)).state = .swapping)
            ∧ u.counters = s.counters ∧ u.alerts = s.alerts)

/-- R173, R175: in HOLDING, any frame of the partner is accepted. Where no entry of an enabled cross rail is
SWAPPING and no session runs on one, the holder side is WATCHING at once: every cross port is disabled, with
no work and its entries VACANT, the skip set is empty, the silence timer runs for 30 s, and a YIELD naming
the partner is the last of the transmit queue where a place is free and nobody waits. Otherwise, no
proving being due on an enabled cross rail and its power being there (R174), the holder side is YIELDING:
every port stays as it is, no PRELOAD, SWAP, CENSUS or REVISIT is left on an enabled cross rail, its POLL
jobs stay, its sessions go on, and every SWAPPING entry stays SWAPPING. R165: a partner frame that falls
together with the expiry of the claim guard, taken after it, gives the rails back at once, no session having
been in flight on them (log entry 53). -/
def Obligations.PartnerFrameGivesTheRailsBack : Prop :=
  (∀ (t : Micros) (f : Frame) (s : State), s.canReceive → s.canonical → s.workSound →
      s.adoptionActive = true → frameFits f = true → s.adopt.holder = .holding →
      (∀ h, s.adopt.heldFrom = some h → h.moment ≠ max s.now t) →
      ∃ u, exec (frameCommand t s.straps.ptn f) s = .next u
        ∧ (yieldCondition s = true → u.adopt.holder = .watching ∧ u.adopt.skip = []
            ∧ u.adopt.silenceAt = some (max s.now t + 30000000)
            ∧ (∀ k : Fin 4, (u.rail (crossRail k)).enabled = false)
            ∧ (∀ k : Fin 4, (s.rail (crossRail k)).enabled = true → (u.rail (crossRail k)).work = []
                ∧ (u.rail (crossRail k)).state = .unproven
                ∧ ∀ p : Fin 64, u.entry (slotOf (crossRail k) p) = Entry.vacant)
            ∧ (placesTaken s < 16 → s.trunk.waiters = [] →
                u.trunk.queue.getLast?.map QueuedFrame.frame = some (.yield s.straps.ptn)))
        ∧ (yieldCondition s = false →
            (∀ k : Fin 4, (s.rail (crossRail k)).enabled = true →
                (s.rail (crossRail k)).power = true ∧ (s.rail (crossRail k)).proveDue = false) →
            u.adopt.holder = .yielding ∧ (∀ r : Fin 8, (u.rail r).enabled = (s.rail r).enabled)
              ∧ (∀ k : Fin 4, (s.rail (crossRail k)).enabled = true →
                  (∀ j ∈ (u.rail (crossRail k)).work, j.kind ≠ .preload ∧ j.kind ≠ .swap ∧ j.kind ≠ .census
                      ∧ j.kind ≠ .revisit)
                    ∧ (∀ p j, (s.rail (crossRail k)).job? .poll p = some j →
                        ((u.rail (crossRail k)).job? .poll p).isSome = true)
                    ∧ (inSession s (crossRail k) = true → inSession u (crossRail k) = true))
              ∧ (∀ m : Nat, (s.entry m).state = .swapping → (u.entry m).state = .swapping)))
    ∧ (∀ (t t' : Micros) (asserted : Vector Bool 4) (f : Frame) (s : State), s.canReceive → s.canonical →
          s.workSound → s.adoptionActive = true → frameFits f = true → s.adopt.holder = .claiming →
          expired s.adopt.guardAt (s.at t) = true → t' ≤ max s.now t →
          (∀ k : Fin 4, (s.rail (crossRail k)).enabled = false) →
          (∀ k : Fin 4, ∀ p : Fin 64, (s.entry (slotOf (crossRail k) p)).state ≠ .swapping) →
          ∃ v u, exec (.claimGuardExpiry t asserted) s = .next v
            ∧ exec (frameCommand t' s.straps.ptn f) v = .next u ∧ u.adopt.holder = .watching
            ∧ u.adopt.silenceAt = some (max s.now t + 30000000)
            ∧ (∀ k : Fin 4, (u.rail (crossRail k)).enabled = false)
            ∧ (∀ k : Fin 4, inSession s (crossRail k) = false → inSession u (crossRail k) = false))

/-- R120, R102, R128: the third ADDRESS_REFUSED in a row at a position makes its entry ABSENT, with count
0, and a REVISIT on the list, due 60 s later: that of a failed REVISIT itself, and a new one where none was
listed; one that waits on the list for a later moment stays as it stands (log entry 37). A position without
an entry stays VACANT. It latches nothing. R174: one that a
POLL of a SWAPPING entry of a cross rail meets in YIELDING, no release being due and another entry of an
enabled cross rail still SWAPPING, makes its entry FAULTED in place of ABSENT, latches the entry-fault alert
and counts a label fault, and the station stays YIELDING (log entry 58). -/
def Obligations.ThirdAddressRefusalGivesUp : Prop :=
  (∀ (t : Micros) (k : Fin 4) (kind : JobKind) (i : Instr) (r : Fin 8) (p : Fin 64) (j : Job) (s : State),
    failureCommand t k .addressRefused kind = some i → s.carries k kind r p j → s.notYielding →
    s.canonical →
    (s.entry (slotOf r p)).family = .address → (s.entry (slotOf r p)).attempts = 2 →
    (s.entry (slotOf r p)).clearWaiting = false →
    ∃ u, exec i s = .next u ∧ u.counters = s.counters ∧ u.alerts = s.alerts
      ∧ ((s.entry (slotOf r p)).state ≠ .vacant →
          (u.entry (slotOf r p)).state = .absent ∧ (u.entry (slotOf r p)).attempts = 0
            ∧ (u.entry (slotOf r p)).family = .none
            ∧ (∃ j' ∈ (u.rail r).work, j'.kind = .revisit ∧ j'.pos = p)
            ∧ ((s.rail r).job? .revisit p = none ∨ kind = .revisit →
                (u.rail r).job? .revisit p = some (Job.make .revisit p (some (max s.now t + 60000000))))
            ∧ (∀ j' d, (s.rail r).job? .revisit p = some j' → kind ≠ .revisit → j'.due = some d →
                max s.now t < d → (u.rail r).job? .revisit p = some j'))
      ∧ ((s.entry (slotOf r p)).state = .vacant → (u.entry (slotOf r p)).state = .vacant))
    ∧ (∀ (t : Micros) (k c : Fin 4) (r : Fin 8) (p p' : Fin 64) (j : Job) (s : State), s.carries k .poll r p j →
        s.canonical → s.workSound → s.adoptionActive = true → s.adopt.holder = .yielding → isCross r = true →
        (∀ k' : Fin 4, (s.rail (crossRail k')).enabled = true →
          (s.rail (crossRail k')).power = true ∧ (s.rail (crossRail k')).proveDue = false) →
        (s.rail (crossRail c)).enabled = true → slotOf (crossRail c) p' ≠ slotOf r p →
        (s.entry (slotOf (crossRail c) p')).state = .swapping →
        (s.entry (slotOf r p)).state = .swapping → (s.entry (slotOf r p)).family = .address →
        (s.entry (slotOf r p)).attempts = 2 → (s.entry (slotOf r p)).clearWaiting = false →
        ∃ u, exec (.pollSessionEnd t k .addressRefused .nothing) s = .next u
          ∧ (u.entry (slotOf r p)).state = .faulted ∧ (u.entry (slotOf r p)).attempts = 0
          ∧ (u.entry (slotOf r p)).family = .none ∧ u.alerts.entryFault = true
          ∧ u.counters = { s.counters with labelFaults := bump s.counters.labelFaults }
          ∧ u.adopt.holder = .yielding)

/-- R114: a stretch past 5 ms ends the session of engine `k`; on an enabled port the rail reset pulse
runs for 2 ms from now, and at its end the engine is no longer in it. -/
def Obligations.StretchTimeoutIsFollowedByThePulse : Prop :=
  ∀ (t : Micros) (k : Fin 4) (r : Fin 8) (kind : SessionKind) (p : Fin 64) (s : State),
    s.power = .on → s.notYielding → engineOf r = k → (s.rail r).enabled = true →
    ((∃ record, (s.engine k).activity = .session r kind p record) →
        ∃ u, exec (.stretchTimeout t k) s = .next u
          ∧ (u.engine k).activity = .pulse r (max s.now t + 2000) ∧ u.mem = s.mem ∧ u.feed = s.feed)
      ∧ (∀ ends, (s.engine k).activity = .pulse r ends → ends ≤ max s.now t →
        ∃ u, exec (.railResetPulseEnd t k) s = .next u
          ∧ (∀ q x, (u.engine k).activity ≠ .pulse q x)
          ∧ (nextWork (s.at t) (homeRail k) = none → nextWork (s.at t) (crossRail k) = none →
              s.noneToRestage → (u.engine k).activity = .idle))

/-- R127, R122: the power of an enabled rail is lost: the rail is UNPROVEN, a preloaded entry on it loses
that state and a SWAPPING one stays so; when power returns to an enabled UNPROVEN rail a proving is due.
R125, R122: 60 s after a rail became DEAD a proving is due on it. -/
def Obligations.RailPowerAndDeadRailsLeadToProvings : Prop :=
  (∀ (t : Micros) (r : Fin 8) (p : Fin 64) (s : State), s.power = .on → s.notYielding →
      (s.rail r).enabled = true →
      (∃ u, exec (.railPowerLost t r) s = .next u ∧ (u.rail r).power = false ∧ (u.rail r).state = .unproven
          ∧ inSession u r = false
          ∧ ((s.entry (slotOf r p)).state = .preloaded → s.canonical → (u.entry (slotOf r p)).state = .staged)
          ∧ ((s.entry (slotOf r p)).state = .swapping → (u.entry (slotOf r p)).state = .swapping))
        ∧ ((s.rail r).state = .unproven → ∃ u, exec (.railPowerReturn t r) s = .next u
          ∧ (u.rail r).power = true ∧ (u.rail r).proveDue = true))
    ∧ (∀ (t : Micros) (r : Fin 8) (s : State), s.power = .on → s.notYielding → (s.rail r).state = .dead →
          expired (s.rail r).reproveAt (s.at t) = true →
          ∃ u, exec (.deadRailReprove t r) s = .next u ∧ (u.rail r).proveDue = true
            ∧ (u.rail r).reproveAt = none ∧ (u.rail r).state = .dead)

/-- Every step keeps what the statements on walks, polls and YIELDING rest on: no slot is
above 511 (R88); with no walk pass running no entry waits for one (R98); a POLL is listed only for a
SWAPPING entry (R128, R141, R96); the holder side is YIELDING only while the yield condition does not hold
(R175); no census of a cross rail is open with every CENSUS job of it delivered (R170); and in SCAN no port
is enabled, no engine busy, no POLL listed, and neither side of the adoption unit has begun (R162, R167,
R177, R203). -/
def Obligations.EveryStepKeepsTheWorkSound : Prop :=
  ∀ s u : State, s.canonical → s.workSound → step s = .next u → u.workSound

/-! ### The flip coordinator -/

/-- R152, R150, R159, R160: a hold has run 3 s and its gap timer has not expired before (log entry 26):
the NEXT bank is LIVE and the old LIVE bank RETIRED with no marks, its dirty sectors on its erase list (R21,
R31); the hold has ended, and an echo period
of 60 s begins with a quiet timer of 400 to 600 ms; a call period goes on, and no byte of flash changes.
R153: an entry pending on the new live batch keeps its record, and a PRELOADED one has a SWAP job; of those
pending on the old live batch a SWAPPING one stays SWAPPING and is not missed, and every other is missed;
the deferred number, if any, becomes the pending record on the new batch, composed but for ABSENT and
FAULTED entries, which keep their state; the others are STAGED on it (or PRELOADING, their engine being
idle), or CURRENT; an entry with no pending record stays as it is. R154: the missed alert is latched where
some entry is missed, and otherwise stands. -/
def Obligations.HoldExpiryFlips : Prop :=
  ∀ (t : Micros) (h : Hold) (b : Batch) (i : BankId) (s : State), s.power = .on → s.rolesSound →
    s.flip.hold = some h → h.holdAt ≤ max s.now t → h.holdAt ≤ h.gapAt → s.bankIn .next = some i →
    (s.bank i).batch = some b →
    ∃ u quiet, exec (.holdTimerExpiry t) s = .next u ∧ u.liveBatch = some b ∧ u.nextBatch = none
      ∧ (u.bank i).role = .live ∧ (u.bank i).marks = (s.bank i).marks
      ∧ ((s.bank i.other).role = .live → (u.bank i.other).role = .retired ∧ (u.bank i.other).marks = []
          ∧ (∀ x ∈ (s.bank i.other).dirty, x ∈ (u.bank i.other).eraseList)
          ∧ (∀ x ∈ (u.bank i.other).dirty, x ∈ (u.bank i.other).eraseList))
      ∧ u.flip.hold = none ∧ u.flip.call = s.flip.call
      ∧ u.flip.echo = some ⟨b, max s.now t + 60000000, max s.now t + quiet⟩ ∧ 400000 ≤ quiet ∧ quiet ≤ 600000
      ∧ u.mem = s.mem ∧ u.feed = s.feed ∧ u.counters = s.counters
      ∧ (s.canonical → s.workSound → s.noneToRestage → s.notYielding →
          (∀ m : Nat,
            let e := s.entry m
            let v := u.entry m
            let onOld := e.pending.isSome = true ∧ e.pending.map PendingRecord.batch = s.liveBatch
            (e.pending = none → v = e)
              ∧ (e.pending.isSome = true → ¬onOld → v.pending = e.pending ∧ v.deferred = e.deferred
                  ∧ v.missed = e.missed ∧ (v.state = e.state ∨ (e.state = .staged ∧ v.state = .preloading)))
              ∧ (e.pending.map PendingRecord.batch = some b → ¬onOld → e.state = .preloaded →
                  v.state = .preloaded ∧ ∃ j ∈ (u.rail (railOf m)).work, j.kind = .swap ∧ j.pos = posOf m)
              ∧ (onOld → v.deferred = none ∧ v.missed = (e.missed || e.state ≠ .swapping))
              ∧ (onOld → e.state = .swapping → v.state = .swapping ∧ v.swapRecord = e.swapRecord)
              ∧ (onOld → e.state = .absent ∨ e.state = .faulted →
                  v.state = e.state ∧ v.pending = e.deferred.map fun d => ⟨b, d, none⟩)
              ∧ (onOld → e.state ≠ .absent → e.state ≠ .faulted →
                  v.pending = e.deferred.map fun d => ⟨b, d, (s.face b d).map Face.check⟩)
              ∧ (onOld → e.state ≠ .absent → e.state ≠ .faulted → e.state ≠ .swapping →
                  (e.deferred = none → v.state = .current)
                    ∧ (e.deferred.isSome = true → v.state = .staged ∨ v.state = .preloading)))
            ∧ u.alerts.missed = (s.alerts.missed || s.dir.entries.any fun c => c.2.pending.isSome
                && c.2.pending.map PendingRecord.batch = s.liveBatch && c.2.state ≠ .swapping))

/-- R150, R157, R159: 750 ms after the last call accepted the hold is abandoned where its 3 s have not
run out before (log entry 26); the call and the echo period end with their 30 s and 60 s, and what waits
for a place for them gives up its wait. No bank, entry or counter changes. R158, R160, R64: each 250 ms
of a call period, and each quiet period of an echo, a FLIP for its batch goes to the tail of the transmit
queue, where none of its own is out, a place is free and nobody waits; with one out nothing is offered.
Either timer starts again, the quiet timer for 400 to 600 ms. -/
def Obligations.HoldsCallsAndEchoesRun : Prop :=
  (∀ (t : Micros) (s : State), s.power = .on →
      (∀ h, s.flip.hold = some h → h.gapAt ≤ max s.now t → h.gapAt ≤ h.holdAt →
          exec (.gapTimerExpiry t) s = .next { s with now := max s.now t, flip := { s.flip with hold := none } })
        ∧ (∀ c, s.flip.call = some c → c.endsAt ≤ max s.now t →
          ∃ u, exec (.callPeriodExpiry t) s = .next u
            ∧ u = { s with now := max s.now t, flip := { s.flip with call := none }, trunk := u.trunk }
            ∧ u.trunk.queue.map QueuedFrame.frame = s.trunk.queue.map QueuedFrame.frame
            ∧ .call ∉ u.trunk.waiters)
        ∧ (∀ e, s.flip.echo = some e → e.endsAt ≤ max s.now t →
          ∃ u, exec (.echoPeriodExpiry t) s = .next u
            ∧ u = { s with now := max s.now t, flip := { s.flip with echo := none }, trunk := u.trunk }
            ∧ u.trunk.queue.map QueuedFrame.frame = s.trunk.queue.map QueuedFrame.frame
            ∧ .echo ∉ u.trunk.waiters))
    ∧ (∀ (t : Micros) (s : State), s.power = .on → s.listenOnly = false → placesTaken s < 16 →
          s.trunk.waiters = [] →
          (∀ c, s.flip.call = some c → c.tickAt ≤ max s.now t → c.tickAt < c.endsAt →
              ∃ u, exec (.callTimerExpiry t) s = .next u
                ∧ u.flip = { s.flip with call := some { c with tickAt := c.tickAt + 250000 } }
                ∧ u.trunk.queue.map QueuedFrame.frame = s.trunk.queue.map QueuedFrame.frame
                    ++ (if (s.trunk.queue.any fun f => f.tag = .call) then [] else [.flip c.batch false]))
            ∧ (∀ e, s.flip.echo = some e → e.quietAt ≤ max s.now t → e.quietAt < e.endsAt →
              ∃ u quiet, exec (.quietTimerExpiry t) s = .next u ∧ 400000 ≤ quiet ∧ quiet ≤ 600000
                ∧ u.flip = { s.flip with echo := some { e with quietAt := max s.now t + quiet } }
                ∧ u.trunk.queue.map QueuedFrame.frame = s.trunk.queue.map QueuedFrame.frame
                    ++ (if (s.trunk.queue.any fun f => f.frame = .flip e.batch true) then []
                        else [.flip e.batch true])))

/-! ### Adoption -/

/-- R163, R164: 30 s of the partner's silence in WATCHING: the holder side is CLAIMING, the silence timer
stops, and a CLAIM naming the partner goes to the tail of the transmit queue where a place is free and
nobody waits (places counted as in log entry 33), and otherwise waits for one behind those that wait. R166,
R168: the claim guard has run, the lines read as the command says (log entry 9): with all four hold lines
asserted the claim comes to nothing and the holder side is WATCHING with an empty skip set; otherwise it is
HOLDING with the adoption alert latched, every cross port whose line reads released is enabled, and the
others are in the skip set. -/
def Obligations.ClaimingTakesTheReleasedPorts : Prop :=
  (∀ (t : Micros) (s : State), s.power = .on → s.listenOnly = false → s.adopt.holder = .watching →
      expired s.adopt.silenceAt (s.at t) = true →
      ∃ u, exec (.partnerSilenceTimerExpiry t) s = .next u ∧ u.adopt.holder = .claiming
        ∧ u.adopt.silenceAt = none ∧ u.adopt.home = s.adopt.home
        ∧ (placesTaken s < 16 → s.trunk.waiters = [] →
            u.trunk.queue.map QueuedFrame.frame
              = s.trunk.queue.map QueuedFrame.frame ++ [.claim s.straps.ptn])
        ∧ (16 ≤ placesTaken s ∨ s.trunk.waiters ≠ [] → u.trunk.waiters = s.trunk.waiters ++ [.claim]
            ∧ u.trunk.queue.map QueuedFrame.frame = s.trunk.queue.map QueuedFrame.frame))
    ∧ (∀ (t : Micros) (asserted : Vector Bool 4) (s : State), s.power = .on → s.adopt.holder = .claiming →
          expired s.adopt.guardAt (s.at t) = true →
          ∃ u, exec (.claimGuardExpiry t asserted) s = .next u
            ∧ (asserted.all id = true → u.adopt.holder = .watching ∧ u.adopt.skip = []
                ∧ u.alerts.adoption = s.alerts.adoption)
            ∧ (asserted.all id = false → u.adopt.holder = .holding ∧ u.alerts.adoption = true
                ∧ (∀ k : Fin 4, asserted[k] = false → (u.rail (crossRail k)).enabled = true
                    ∧ (u.rail (crossRail k)).state = .unproven)
                ∧ (∀ k : Fin 4, asserted[k] = true ↔ k ∈ u.adopt.skip)))

/-- R172, R176: the hold line of an enabled cross port reads asserted: the port is disabled, its rail
UNPROVEN with an empty work list and its adopted entries VACANT; where no other cross port is enabled the
holder side returns to WATCHING, and otherwise it keeps its state. -/
def Obligations.AssertedHoldLineReleasesThePort : Prop :=
  ∀ (t : Micros) (k : Fin 4) (s : State), s.power = .on → s.adopt.holder = .holding → s.canonical →
    (s.rail (crossRail k)).enabled = true →
    ∃ u, exec (.holdLineAsserted t k) s = .next u ∧ (u.rail (crossRail k)).enabled = false
      ∧ (u.rail (crossRail k)).state = .unproven ∧ (u.rail (crossRail k)).work = []
      ∧ (∀ p : Fin 64, u.entry (slotOf (crossRail k) p) = Entry.vacant)
      ∧ ((∀ q : Fin 4, q ≠ k → (s.rail (crossRail q)).enabled = false) → u.adopt.holder = .watching)
      ∧ ((∃ q : Fin 4, q ≠ k ∧ (s.rail (crossRail q)).enabled = true) → u.adopt.holder = .holding)

/-- R178, R179: 20 s of WAIT_RELEASE, or 30 s without a frame of the holder in it, put all four home
rails in TAKING with their hold lines asserted, for 5 ms from now (that the lines then read back asserted
is the model's, log entry 9). Nothing else changes. R179: a home hold line that has read back asserted
for 5 ms gives its rail to the station: OWN, with its port enabled and its rail UNPROVEN; a line that
reads back released disables the port at once and the rail is TAKING again, counting its 5 ms afresh from
when the line next reads asserted. -/
def Obligations.HomeSideTakesItsRails : Prop :=
  (∀ (t : Micros) (s : State), s.power = .on → s.adopt.waitUntil.isSome = true →
      let taking := { s with
        now := max s.now t
        adopt := { s.adopt with
          home := Vector.replicate 4 (.taking (some (max s.now t + 5000))), waitUntil := none } }
      (expired s.adopt.waitUntil (s.at t) = true → exec (.waitReleaseTimeout t) s = .next taking)
        ∧ (∀ h last, s.adopt.trigger = some h → Sparse.get none s.trunk.sources h.toNat = some last →
            last + 30000000 ≤ max s.now t → exec (.holderSilence t) s = .next taking)
        ∧ (∀ k : Fin 4, taking.holdDriven k = true))
    ∧ (∀ (t : Micros) (k : Fin 4) (s : State), s.power = .on →
          (∀ d, s.adopt.home[k] = .taking (some d) → d ≤ max s.now t →
              ∃ u, exec (.takingComplete t k) s = .next u ∧ u.adopt.home[k] = .own
                ∧ (u.rail (homeRail k)).enabled = true ∧ (u.rail (homeRail k)).state = .unproven)
            ∧ (s.adopt.home[k] = .own →
              ∃ u, exec (.holdLineReadbackReleased t k) s = .next u ∧ u.adopt.home[k] = .taking none
                ∧ (u.rail (homeRail k)).enabled = false
                ∧ (s.noneToRestage → (u.rail (homeRail k)).work = []))
            ∧ (s.adopt.home[k] = .taking none →
              ∃ u, exec (.holdLineReadbackAsserted t k) s = .next u
                ∧ u = { s with now := max s.now t, adopt := { s.adopt with home := u.adopt.home } }
                ∧ u.adopt.home[k] = .taking (some (max s.now t + 5000))))
end

