-- ==== Sys2Proof/Laws/FeedPins.lean ====
section
/-! SUPPORT. The pins of the feed port: what clocking bits in leaves of its count, and that bytes come
back from their bits. -/

set_option Elab.async false

namespace Sys2Proof.Machine

@[simp] theorem PortClock.after_selectFall (c : PortClock) : c.after .selectFall = ⟨true, [], 0⟩ := rfl
@[simp] theorem PortClock.after_selectRise (c : PortClock) :
    c.after .selectRise = { c with selected := false } := rfl

theorem PortClock.run_append (c : PortClock) (es fs : List PinEvent) : c.run (es ++ fs) = (c.run es).run fs := by
  simp [PortClock.run]

/-- R180: bits clocked while FSEL_N is low are sampled in their order. -/
theorem PortClock.run_clocked (c : PortClock) (bits : List Bool) (h : c.selected = true) :
    c.run (clocked bits) = ⟨true, c.sampled ++ bits, c.falls + bits.length⟩ := by
  induction bits generalizing c with
  | nil => simp [PortClock.run, clocked, ← h]
  | cons b bs ih =>
    have e : c.run (clocked (b :: bs)) = PortClock.run ⟨true, c.sampled ++ [b], c.falls + 1⟩ (clocked bs) := by
      simp [PortClock.run, clocked, PortClock.after, h]
    rw [e, ih _ rfl]
    simp [Nat.add_comm, Nat.add_left_comm]

/-- R180: bits clocked while FSEL_N is high count for nothing. -/
theorem PortClock.run_clocked_high (c : PortClock) (bits : List Bool) (h : c.selected = false) :
    c.run (clocked bits) = c := by
  induction bits with
  | nil => rfl
  | cons b bs ih => simpa [PortClock.run, clocked, PortClock.after, h] using ih

theorem bitsOf_length (bs : List Byte) : (bitsOf bs).length = 8 * bs.length := by
  induction bs with
  | nil => rfl
  | cons b bs ih => simp only [bitsOf, List.flatMap_cons, List.length_append, List.length_map,
      List.length_cons, List.length_nil] at ih ⊢; omega

/-- The number that the bits of a byte spell, most significant first. -/
theorem foldl_bits (b : Byte) :
    ([7, 6, 5, 4, 3, 2, 1, 0].map b.getLsbD).foldl (fun x b => 2 * x + b.toNat) 0 = b.toNat := by
  revert b; decide +kernel

/-- Bytes come back from their bits, whatever bits follow. -/
theorem bytesOfBits_bitsOf (bs : List Byte) (tail : List Bool) :
    bytesOfBits bs.length (bitsOf bs ++ tail) = bs := by
  induction bs with
  | nil => rfl
  | cons b bs ih =>
    have t : (bitsOf (b :: bs) ++ tail).take 8 = [7, 6, 5, 4, 3, 2, 1, 0].map b.getLsbD := by simp [bitsOf]
    have d : (bitsOf (b :: bs) ++ tail).drop 8 = bitsOf bs ++ tail := by simp [bitsOf]
    rw [List.length_cons, bytesOfBits, t, d, ih, foldl_bits, BitVec.ofNat_toNat, BitVec.setWidth_eq]

end Sys2Proof.Machine
end

