-- ==== Sys2Proof/Laws/Label.lean ====
section
/-! SUPPORT. Rail sessions: their length, and that the parts of a session end it as the label's and the
terminator's rules say. -/

set_option Elab.async false

namespace Sys2Proof.Machine

theorem SessionByte.line_length (b : SessionByte) : b.line.length = 9 := by
  simp [SessionByte.line, bitsOf]

/-- R113: a session with `n` bytes lasts 9 × n + 2 bit times, whether or not it is ended early. -/
theorem sessionBits_eq (bs : List SessionByte) : sessionBits bs = 9 * bs.length + 2 := by
  simp only [sessionBits, sessionParts, List.cons_append, List.map_cons, List.map_append, List.map_map,
    List.map_nil, List.sum_cons, List.sum_append, List.sum_nil]
  have h : ((bs.map (SessionPart.bits ∘ SessionPart.byte))).sum = 9 * bs.length := by
    induction bs with
    | nil => rfl
    | cons b bs ih => simp only [List.map_cons, List.sum_cons, Function.comp, SessionPart.bits,
        SessionByte.line_length, List.length_cons] at ih ⊢; omega
  simp only [h, SessionPart.bits]; omega

theorem targetBytes_sender (bs : List Byte) : ∀ b ∈ targetBytes bs, b.sender = .target := by
  fun_induction targetBytes bs <;> simp_all

/-- With every byte acknowledged the station sends them all. -/
theorem stationBytes_all (acks : Nat → Bool) (n : Nat) (bs : List Byte)
    (h : ∀ k < bs.length, acks (n + k) = true) :
    stationBytes acks n bs = bs.map fun b => ⟨.station, b, true⟩ := by
  induction bs generalizing n with
  | nil => rfl
  | cons b bs ih =>
    have h0 := h 0 (by simp)
    simp only [Nat.add_zero] at h0
    simp only [stationBytes, h0, List.map_cons, if_true]
    rw [ih (n + 1) fun k hk => by
      rw [← h (k + 1) (by simpa using hk)]; congr 1; omega]

/-- Where the byte at place `m` is the first not acknowledged, it is the last sent. -/
theorem stationBytes_stop (acks : Nat → Bool) (n m : Nat) (bs : List Byte) (hm : m < bs.length)
    (h : ∀ k < m, acks (n + k) = true) (hs : acks (n + m) = false) :
    ∃ b, stationBytes acks n bs = (bs.take m).map (fun b => ⟨.station, b, true⟩) ++ [⟨.station, b, false⟩] := by
  induction bs generalizing n m with
  | nil => simp at hm
  | cons b bs ih =>
    cases m with
    | zero => exact ⟨b, by simp only [Nat.add_zero] at hs; simp [stationBytes, hs]⟩
    | succ m =>
      have h0 := h 0 (by simp)
      simp only [Nat.add_zero] at h0
      obtain ⟨b', hb⟩ := ih (n + 1) m (by simpa using hm)
        (fun k hk => by rw [← h (k + 1) (by omega)]; congr 1; omega)
        (by rw [← hs]; congr 1; omega)
      exact ⟨b', by simp [stationBytes, h0, hb]⟩

/-- R119: a session all of whose sent bytes are acknowledged ends DONE and carries every byte. -/
theorem sessionBytes_done (c : SessionCommand) (acks : Nat → Bool) (reads : List Byte)
    (h : ∀ k < c.writes.length + 2, acks k = true) :
    sessionEnding (sessionBytes c acks reads) = .done
      ∧ sessionBytes c acks reads
        = (c.address :: c.opcode :: c.writes).map (fun b => ⟨.station, b, true⟩) ++ targetBytes reads := by
  have e := stationBytes_all acks 0 (c.address :: c.opcode :: c.writes) (fun k hk => by
    rw [Nat.zero_add]; exact h k (by simp only [List.length_cons] at hk; omega))
  have a : allAcknowledged (stationBytes acks 0 (c.address :: c.opcode :: c.writes)) = true := by
    rw [e]; simp [allAcknowledged]
  have hb : sessionBytes c acks reads
      = (c.address :: c.opcode :: c.writes).map (fun b => ⟨.station, b, true⟩) ++ targetBytes reads := by
    unfold sessionBytes; rw [if_pos a, e]
  refine ⟨?_, hb⟩
  rw [hb, sessionEnding, List.findIdx?_eq_none_iff.mpr]
  intro b hb
  rcases List.mem_append.mp hb with hb | hb
  · obtain ⟨x, -, rfl⟩ := List.mem_map.mp hb; rfl
  · simp [targetBytes_sender _ b hb]

/-- R113, R119: a session whose byte `m` is the first not acknowledged has `m + 1` bytes and ends by
their number. -/
theorem sessionBytes_stop (c : SessionCommand) (acks : Nat → Bool) (reads : List Byte) (m : Nat)
    (hm : m < c.writes.length + 2) (h : ∀ k < m, acks k = true) (hs : acks m = false) :
    (sessionBytes c acks reads).length = m + 1
      ∧ sessionEnding (sessionBytes c acks reads)
        = if m = 0 then .addressRefused else if m = 1 then .opcodeRefused else .checkRefused := by
  obtain ⟨b, e⟩ := stationBytes_stop acks 0 m (c.address :: c.opcode :: c.writes)
    (by simp only [List.length_cons]; omega)
    (by simpa using h) (by simpa using hs)
  have a : allAcknowledged (stationBytes acks 0 (c.address :: c.opcode :: c.writes)) = false := by
    rw [e]; simp [allAcknowledged]
  have hb : sessionBytes c acks reads = ((c.address :: c.opcode :: c.writes).take m).map
      (fun b => ⟨.station, b, true⟩) ++ [⟨.station, b, false⟩] := by
    unfold sessionBytes; rw [if_neg (by simp [a]), e]
  have l : ((c.address :: c.opcode :: c.writes).take m).length = m := by
    rw [List.length_take]; exact Nat.min_eq_left (by simp only [List.length_cons]; omega)
  refine ⟨by rw [hb, List.length_append, List.length_map, l]; rfl, ?_⟩
  have f : (sessionBytes c acks reads).findIdx? (fun b => b.sender = .station && !b.acknowledged) = some m := by
    rw [hb, List.findIdx?_append, List.findIdx?_eq_none_iff.mpr (by
      intro x hx; obtain ⟨y, -, rfl⟩ := List.mem_map.mp hx; rfl)]
    simp [List.findIdx?_cons]; omega
  rw [sessionEnding, f]
  rcases m with _ | _ | m <;> rfl

/-- R113, R119: how a session with a target that is there ends. -/
theorem targetAcks_ending (c : SessionCommand) (reads : List Byte) (takes agrees : Bool)
    (h : agrees = false → c.writes ≠ []) :
    sessionEnding (sessionBytes c (targetAcks takes agrees c.writes.length) reads)
      = if takes = false then .opcodeRefused else if agrees = false then .checkRefused else .done := by
  cases takes
  · rw [(sessionBytes_stop _ _ _ 1 (by omega) (fun k hk => by
      have : k = 0 := by omega
      subst this; rfl) rfl).2]
    rfl
  cases agrees
  · have hw := List.length_pos_iff.mpr (h rfl)
    rw [(sessionBytes_stop _ _ _ (c.writes.length + 1) (by omega)
      (fun k hk => by unfold targetAcks; (repeat' split) <;> first | rfl | omega)
      (by unfold targetAcks; (repeat' split) <;> first | rfl | omega)).2, if_neg (by omega), if_neg (by omega)]
    rfl
  · rw [(sessionBytes_done _ _ _ (fun k _ => by unfold targetAcks; (repeat' split) <;> rfl)).1]
    rfl

/-- R116, R117, R119: a label session made of its parts ends as the label's rules say. -/
theorem labelBytes_ending (l : Label) (p : Fin 64) (c : LabelCommand)
    (h : c.agrees = false → (c.session p).writes ≠ []) :
    sessionEnding (labelBytes (some l) p c) = (l.session c).2.1 := by
  refine (targetAcks_ending _ _ _ _ h).trans ?_
  unfold Label.session
  cases l.takesOpcode c <;> cases c.agrees <;> rfl

/-- R118, R119: a terminator session made of its parts ends as the terminator's rules say. -/
theorem terminatorBytes_ending (x : Terminator) (c : TerminatorCommand) :
    sessionEnding (terminatorBytes (some x) c) = (x.session c).2.1 := by
  refine (targetAcks_ending _ _ _ _ (by simp)).trans ?_
  unfold Terminator.session
  cases x.takesOpcode c <;> rfl

/-- R113: where nothing hangs at a position a session ends with its address byte. -/
theorem labelBytes_absent (p : Fin 64) (c : LabelCommand) :
    sessionEnding (labelBytes none p c) = .addressRefused ∧ sessionBits (labelBytes none p c) = 11 := by
  have h := sessionBytes_stop (c.session p) (labelAcks none p c) [] 0 (by omega) (by omega) rfl
  exact ⟨h.2, by rw [sessionBits_eq]; have := h.1; simp only [labelBytes, Option.map_none, Option.getD_none] at this ⊢; omega⟩

end Sys2Proof.Machine
end

