-- ==== Sys2Proof/Laws/State.lean ====
section
/-! SUPPORT. What each plain update of the state leaves of every other field, and what it leaves of its
own. -/

set_option Elab.async false

namespace Sys2Proof.Machine

/-! ### State.at -/

@[simp] theorem State.at_pending (s : State) (t : Micros) : (s.at t).pending = s.pending := rfl
@[simp] theorem State.at_draws (s : State) (t : Micros) : (s.at t).draws = s.draws := rfl
@[simp] theorem State.at_power (s : State) (t : Micros) : (s.at t).power = s.power := rfl
@[simp] theorem State.at_phase (s : State) (t : Micros) : (s.at t).phase = s.phase := rfl
@[simp] theorem State.at_listenUntil (s : State) (t : Micros) : (s.at t).listenUntil = s.listenUntil := rfl
@[simp] theorem State.at_straps (s : State) (t : Micros) : (s.at t).straps = s.straps := rfl
@[simp] theorem State.at_mem (s : State) (t : Micros) : (s.at t).mem = s.mem := rfl
@[simp] theorem State.at_dirFlash (s : State) (t : Micros) : (s.at t).dirFlash = s.dirFlash := rfl
@[simp] theorem State.at_lockFlash (s : State) (t : Micros) : (s.at t).lockFlash = s.lockFlash := rfl
@[simp] theorem State.at_bankA (s : State) (t : Micros) : (s.at t).bankA = s.bankA := rfl
@[simp] theorem State.at_bankB (s : State) (t : Micros) : (s.at t).bankB = s.bankB := rfl
@[simp] theorem State.at_holdQueue (s : State) (t : Micros) : (s.at t).holdQueue = s.holdQueue := rfl
@[simp] theorem State.at_unstored (s : State) (t : Micros) : (s.at t).unstored = s.unstored := rfl
@[simp] theorem State.at_flash (s : State) (t : Micros) : (s.at t).flash = s.flash := rfl
@[simp] theorem State.at_dir (s : State) (t : Micros) : (s.at t).dir = s.dir := rfl
@[simp] theorem State.at_trunk (s : State) (t : Micros) : (s.at t).trunk = s.trunk := rfl
@[simp] theorem State.at_repair (s : State) (t : Micros) : (s.at t).repair = s.repair := rfl
@[simp] theorem State.at_rails (s : State) (t : Micros) : (s.at t).rails = s.rails := rfl
@[simp] theorem State.at_engines (s : State) (t : Micros) : (s.at t).engines = s.engines := rfl
@[simp] theorem State.at_flip (s : State) (t : Micros) : (s.at t).flip = s.flip := rfl
@[simp] theorem State.at_adopt (s : State) (t : Micros) : (s.at t).adopt = s.adopt := rfl
@[simp] theorem State.at_resetLow (s : State) (t : Micros) : (s.at t).resetLow = s.resetLow := rfl
@[simp] theorem State.at_fselLow (s : State) (t : Micros) : (s.at t).fselLow = s.fselLow := rfl
@[simp] theorem State.at_feed (s : State) (t : Micros) : (s.at t).feed = s.feed := rfl
@[simp] theorem State.at_counters (s : State) (t : Micros) : (s.at t).counters = s.counters := rfl
@[simp] theorem State.at_alerts (s : State) (t : Micros) : (s.at t).alerts = s.alerts := rfl

/-! ### State.drew -/

@[simp] theorem State.drew_pending (s : State) : s.drew.pending = s.pending := rfl
@[simp] theorem State.drew_now (s : State) : s.drew.now = s.now := rfl
@[simp] theorem State.drew_power (s : State) : s.drew.power = s.power := rfl
@[simp] theorem State.drew_phase (s : State) : s.drew.phase = s.phase := rfl
@[simp] theorem State.drew_listenUntil (s : State) : s.drew.listenUntil = s.listenUntil := rfl
@[simp] theorem State.drew_straps (s : State) : s.drew.straps = s.straps := rfl
@[simp] theorem State.drew_mem (s : State) : s.drew.mem = s.mem := rfl
@[simp] theorem State.drew_dirFlash (s : State) : s.drew.dirFlash = s.dirFlash := rfl
@[simp] theorem State.drew_lockFlash (s : State) : s.drew.lockFlash = s.lockFlash := rfl
@[simp] theorem State.drew_bankA (s : State) : s.drew.bankA = s.bankA := rfl
@[simp] theorem State.drew_bankB (s : State) : s.drew.bankB = s.bankB := rfl
@[simp] theorem State.drew_holdQueue (s : State) : s.drew.holdQueue = s.holdQueue := rfl
@[simp] theorem State.drew_unstored (s : State) : s.drew.unstored = s.unstored := rfl
@[simp] theorem State.drew_flash (s : State) : s.drew.flash = s.flash := rfl
@[simp] theorem State.drew_dir (s : State) : s.drew.dir = s.dir := rfl
@[simp] theorem State.drew_trunk (s : State) : s.drew.trunk = s.trunk := rfl
@[simp] theorem State.drew_repair (s : State) : s.drew.repair = s.repair := rfl
@[simp] theorem State.drew_rails (s : State) : s.drew.rails = s.rails := rfl
@[simp] theorem State.drew_engines (s : State) : s.drew.engines = s.engines := rfl
@[simp] theorem State.drew_flip (s : State) : s.drew.flip = s.flip := rfl
@[simp] theorem State.drew_adopt (s : State) : s.drew.adopt = s.adopt := rfl
@[simp] theorem State.drew_resetLow (s : State) : s.drew.resetLow = s.resetLow := rfl
@[simp] theorem State.drew_fselLow (s : State) : s.drew.fselLow = s.fselLow := rfl
@[simp] theorem State.drew_feed (s : State) : s.drew.feed = s.feed := rfl
@[simp] theorem State.drew_counters (s : State) : s.drew.counters = s.counters := rfl
@[simp] theorem State.drew_alerts (s : State) : s.drew.alerts = s.alerts := rfl

/-! ### State.setBank -/

@[simp] theorem State.setBank_pending (s : State) (i : BankId) (k : Bank) : (s.setBank i k).pending = s.pending := by cases i <;> rfl
@[simp] theorem State.setBank_now (s : State) (i : BankId) (k : Bank) : (s.setBank i k).now = s.now := by cases i <;> rfl
@[simp] theorem State.setBank_draws (s : State) (i : BankId) (k : Bank) : (s.setBank i k).draws = s.draws := by cases i <;> rfl
@[simp] theorem State.setBank_power (s : State) (i : BankId) (k : Bank) : (s.setBank i k).power = s.power := by cases i <;> rfl
@[simp] theorem State.setBank_phase (s : State) (i : BankId) (k : Bank) : (s.setBank i k).phase = s.phase := by cases i <;> rfl
@[simp] theorem State.setBank_listenUntil (s : State) (i : BankId) (k : Bank) : (s.setBank i k).listenUntil = s.listenUntil := by cases i <;> rfl
@[simp] theorem State.setBank_straps (s : State) (i : BankId) (k : Bank) : (s.setBank i k).straps = s.straps := by cases i <;> rfl
@[simp] theorem State.setBank_mem (s : State) (i : BankId) (k : Bank) : (s.setBank i k).mem = s.mem := by cases i <;> rfl
@[simp] theorem State.setBank_dirFlash (s : State) (i : BankId) (k : Bank) : (s.setBank i k).dirFlash = s.dirFlash := by cases i <;> rfl
@[simp] theorem State.setBank_lockFlash (s : State) (i : BankId) (k : Bank) : (s.setBank i k).lockFlash = s.lockFlash := by cases i <;> rfl
@[simp] theorem State.setBank_holdQueue (s : State) (i : BankId) (k : Bank) : (s.setBank i k).holdQueue = s.holdQueue := by cases i <;> rfl
@[simp] theorem State.setBank_unstored (s : State) (i : BankId) (k : Bank) : (s.setBank i k).unstored = s.unstored := by cases i <;> rfl
@[simp] theorem State.setBank_flash (s : State) (i : BankId) (k : Bank) : (s.setBank i k).flash = s.flash := by cases i <;> rfl
@[simp] theorem State.setBank_dir (s : State) (i : BankId) (k : Bank) : (s.setBank i k).dir = s.dir := by cases i <;> rfl
@[simp] theorem State.setBank_trunk (s : State) (i : BankId) (k : Bank) : (s.setBank i k).trunk = s.trunk := by cases i <;> rfl
@[simp] theorem State.setBank_repair (s : State) (i : BankId) (k : Bank) : (s.setBank i k).repair = s.repair := by cases i <;> rfl
@[simp] theorem State.setBank_rails (s : State) (i : BankId) (k : Bank) : (s.setBank i k).rails = s.rails := by cases i <;> rfl
@[simp] theorem State.setBank_engines (s : State) (i : BankId) (k : Bank) : (s.setBank i k).engines = s.engines := by cases i <;> rfl
@[simp] theorem State.setBank_flip (s : State) (i : BankId) (k : Bank) : (s.setBank i k).flip = s.flip := by cases i <;> rfl
@[simp] theorem State.setBank_adopt (s : State) (i : BankId) (k : Bank) : (s.setBank i k).adopt = s.adopt := by cases i <;> rfl
@[simp] theorem State.setBank_resetLow (s : State) (i : BankId) (k : Bank) : (s.setBank i k).resetLow = s.resetLow := by cases i <;> rfl
@[simp] theorem State.setBank_fselLow (s : State) (i : BankId) (k : Bank) : (s.setBank i k).fselLow = s.fselLow := by cases i <;> rfl
@[simp] theorem State.setBank_feed (s : State) (i : BankId) (k : Bank) : (s.setBank i k).feed = s.feed := by cases i <;> rfl
@[simp] theorem State.setBank_counters (s : State) (i : BankId) (k : Bank) : (s.setBank i k).counters = s.counters := by cases i <;> rfl
@[simp] theorem State.setBank_alerts (s : State) (i : BankId) (k : Bank) : (s.setBank i k).alerts = s.alerts := by cases i <;> rfl

/-! ### State.setEntry -/

@[simp] theorem State.setEntry_pending (s : State) (i : Nat) (e : Entry) : (s.setEntry i e).pending = s.pending := rfl
@[simp] theorem State.setEntry_now (s : State) (i : Nat) (e : Entry) : (s.setEntry i e).now = s.now := rfl
@[simp] theorem State.setEntry_draws (s : State) (i : Nat) (e : Entry) : (s.setEntry i e).draws = s.draws := rfl
@[simp] theorem State.setEntry_power (s : State) (i : Nat) (e : Entry) : (s.setEntry i e).power = s.power := rfl
@[simp] theorem State.setEntry_phase (s : State) (i : Nat) (e : Entry) : (s.setEntry i e).phase = s.phase := rfl
@[simp] theorem State.setEntry_listenUntil (s : State) (i : Nat) (e : Entry) : (s.setEntry i e).listenUntil = s.listenUntil := rfl
@[simp] theorem State.setEntry_straps (s : State) (i : Nat) (e : Entry) : (s.setEntry i e).straps = s.straps := rfl
@[simp] theorem State.setEntry_mem (s : State) (i : Nat) (e : Entry) : (s.setEntry i e).mem = s.mem := rfl
@[simp] theorem State.setEntry_dirFlash (s : State) (i : Nat) (e : Entry) : (s.setEntry i e).dirFlash = s.dirFlash := rfl
@[simp] theorem State.setEntry_lockFlash (s : State) (i : Nat) (e : Entry) : (s.setEntry i e).lockFlash = s.lockFlash := rfl
@[simp] theorem State.setEntry_bankA (s : State) (i : Nat) (e : Entry) : (s.setEntry i e).bankA = s.bankA := rfl
@[simp] theorem State.setEntry_bankB (s : State) (i : Nat) (e : Entry) : (s.setEntry i e).bankB = s.bankB := rfl
@[simp] theorem State.setEntry_holdQueue (s : State) (i : Nat) (e : Entry) : (s.setEntry i e).holdQueue = s.holdQueue := rfl
@[simp] theorem State.setEntry_unstored (s : State) (i : Nat) (e : Entry) : (s.setEntry i e).unstored = s.unstored := rfl
@[simp] theorem State.setEntry_flash (s : State) (i : Nat) (e : Entry) : (s.setEntry i e).flash = s.flash := rfl
@[simp] theorem State.setEntry_trunk (s : State) (i : Nat) (e : Entry) : (s.setEntry i e).trunk = s.trunk := rfl
@[simp] theorem State.setEntry_repair (s : State) (i : Nat) (e : Entry) : (s.setEntry i e).repair = s.repair := rfl
@[simp] theorem State.setEntry_rails (s : State) (i : Nat) (e : Entry) : (s.setEntry i e).rails = s.rails := rfl
@[simp] theorem State.setEntry_engines (s : State) (i : Nat) (e : Entry) : (s.setEntry i e).engines = s.engines := rfl
@[simp] theorem State.setEntry_flip (s : State) (i : Nat) (e : Entry) : (s.setEntry i e).flip = s.flip := rfl
@[simp] theorem State.setEntry_adopt (s : State) (i : Nat) (e : Entry) : (s.setEntry i e).adopt = s.adopt := rfl
@[simp] theorem State.setEntry_resetLow (s : State) (i : Nat) (e : Entry) : (s.setEntry i e).resetLow = s.resetLow := rfl
@[simp] theorem State.setEntry_fselLow (s : State) (i : Nat) (e : Entry) : (s.setEntry i e).fselLow = s.fselLow := rfl
@[simp] theorem State.setEntry_feed (s : State) (i : Nat) (e : Entry) : (s.setEntry i e).feed = s.feed := rfl
@[simp] theorem State.setEntry_counters (s : State) (i : Nat) (e : Entry) : (s.setEntry i e).counters = s.counters := rfl
@[simp] theorem State.setEntry_alerts (s : State) (i : Nat) (e : Entry) : (s.setEntry i e).alerts = s.alerts := rfl

/-! ### State.setSlot -/

@[simp] theorem State.setSlot_pending (s : State) (k : Fin 8) (w : Option WantSlot) : (s.setSlot k w).pending = s.pending := rfl
@[simp] theorem State.setSlot_now (s : State) (k : Fin 8) (w : Option WantSlot) : (s.setSlot k w).now = s.now := rfl
@[simp] theorem State.setSlot_draws (s : State) (k : Fin 8) (w : Option WantSlot) : (s.setSlot k w).draws = s.draws := rfl
@[simp] theorem State.setSlot_power (s : State) (k : Fin 8) (w : Option WantSlot) : (s.setSlot k w).power = s.power := rfl
@[simp] theorem State.setSlot_phase (s : State) (k : Fin 8) (w : Option WantSlot) : (s.setSlot k w).phase = s.phase := rfl
@[simp] theorem State.setSlot_listenUntil (s : State) (k : Fin 8) (w : Option WantSlot) : (s.setSlot k w).listenUntil = s.listenUntil := rfl
@[simp] theorem State.setSlot_straps (s : State) (k : Fin 8) (w : Option WantSlot) : (s.setSlot k w).straps = s.straps := rfl
@[simp] theorem State.setSlot_mem (s : State) (k : Fin 8) (w : Option WantSlot) : (s.setSlot k w).mem = s.mem := rfl
@[simp] theorem State.setSlot_dirFlash (s : State) (k : Fin 8) (w : Option WantSlot) : (s.setSlot k w).dirFlash = s.dirFlash := rfl
@[simp] theorem State.setSlot_lockFlash (s : State) (k : Fin 8) (w : Option WantSlot) : (s.setSlot k w).lockFlash = s.lockFlash := rfl
@[simp] theorem State.setSlot_bankA (s : State) (k : Fin 8) (w : Option WantSlot) : (s.setSlot k w).bankA = s.bankA := rfl
@[simp] theorem State.setSlot_bankB (s : State) (k : Fin 8) (w : Option WantSlot) : (s.setSlot k w).bankB = s.bankB := rfl
@[simp] theorem State.setSlot_holdQueue (s : State) (k : Fin 8) (w : Option WantSlot) : (s.setSlot k w).holdQueue = s.holdQueue := rfl
@[simp] theorem State.setSlot_unstored (s : State) (k : Fin 8) (w : Option WantSlot) : (s.setSlot k w).unstored = s.unstored := rfl
@[simp] theorem State.setSlot_flash (s : State) (k : Fin 8) (w : Option WantSlot) : (s.setSlot k w).flash = s.flash := rfl
@[simp] theorem State.setSlot_dir (s : State) (k : Fin 8) (w : Option WantSlot) : (s.setSlot k w).dir = s.dir := rfl
@[simp] theorem State.setSlot_trunk (s : State) (k : Fin 8) (w : Option WantSlot) : (s.setSlot k w).trunk = s.trunk := rfl
@[simp] theorem State.setSlot_rails (s : State) (k : Fin 8) (w : Option WantSlot) : (s.setSlot k w).rails = s.rails := rfl
@[simp] theorem State.setSlot_engines (s : State) (k : Fin 8) (w : Option WantSlot) : (s.setSlot k w).engines = s.engines := rfl
@[simp] theorem State.setSlot_flip (s : State) (k : Fin 8) (w : Option WantSlot) : (s.setSlot k w).flip = s.flip := rfl
@[simp] theorem State.setSlot_adopt (s : State) (k : Fin 8) (w : Option WantSlot) : (s.setSlot k w).adopt = s.adopt := rfl
@[simp] theorem State.setSlot_resetLow (s : State) (k : Fin 8) (w : Option WantSlot) : (s.setSlot k w).resetLow = s.resetLow := rfl
@[simp] theorem State.setSlot_fselLow (s : State) (k : Fin 8) (w : Option WantSlot) : (s.setSlot k w).fselLow = s.fselLow := rfl
@[simp] theorem State.setSlot_feed (s : State) (k : Fin 8) (w : Option WantSlot) : (s.setSlot k w).feed = s.feed := rfl
@[simp] theorem State.setSlot_counters (s : State) (k : Fin 8) (w : Option WantSlot) : (s.setSlot k w).counters = s.counters := rfl
@[simp] theorem State.setSlot_alerts (s : State) (k : Fin 8) (w : Option WantSlot) : (s.setSlot k w).alerts = s.alerts := rfl

/-! ### State.setRail -/

@[simp] theorem State.setRail_pending (s : State) (r : Fin 8) (x : Rail) : (s.setRail r x).pending = s.pending := rfl
@[simp] theorem State.setRail_now (s : State) (r : Fin 8) (x : Rail) : (s.setRail r x).now = s.now := rfl
@[simp] theorem State.setRail_draws (s : State) (r : Fin 8) (x : Rail) : (s.setRail r x).draws = s.draws := rfl
@[simp] theorem State.setRail_power (s : State) (r : Fin 8) (x : Rail) : (s.setRail r x).power = s.power := rfl
@[simp] theorem State.setRail_phase (s : State) (r : Fin 8) (x : Rail) : (s.setRail r x).phase = s.phase := rfl
@[simp] theorem State.setRail_listenUntil (s : State) (r : Fin 8) (x : Rail) : (s.setRail r x).listenUntil = s.listenUntil := rfl
@[simp] theorem State.setRail_straps (s : State) (r : Fin 8) (x : Rail) : (s.setRail r x).straps = s.straps := rfl
@[simp] theorem State.setRail_mem (s : State) (r : Fin 8) (x : Rail) : (s.setRail r x).mem = s.mem := rfl
@[simp] theorem State.setRail_dirFlash (s : State) (r : Fin 8) (x : Rail) : (s.setRail r x).dirFlash = s.dirFlash := rfl
@[simp] theorem State.setRail_lockFlash (s : State) (r : Fin 8) (x : Rail) : (s.setRail r x).lockFlash = s.lockFlash := rfl
@[simp] theorem State.setRail_bankA (s : State) (r : Fin 8) (x : Rail) : (s.setRail r x).bankA = s.bankA := rfl
@[simp] theorem State.setRail_bankB (s : State) (r : Fin 8) (x : Rail) : (s.setRail r x).bankB = s.bankB := rfl
@[simp] theorem State.setRail_holdQueue (s : State) (r : Fin 8) (x : Rail) : (s.setRail r x).holdQueue = s.holdQueue := rfl
@[simp] theorem State.setRail_unstored (s : State) (r : Fin 8) (x : Rail) : (s.setRail r x).unstored = s.unstored := rfl
@[simp] theorem State.setRail_flash (s : State) (r : Fin 8) (x : Rail) : (s.setRail r x).flash = s.flash := rfl
@[simp] theorem State.setRail_dir (s : State) (r : Fin 8) (x : Rail) : (s.setRail r x).dir = s.dir := rfl
@[simp] theorem State.setRail_trunk (s : State) (r : Fin 8) (x : Rail) : (s.setRail r x).trunk = s.trunk := rfl
@[simp] theorem State.setRail_repair (s : State) (r : Fin 8) (x : Rail) : (s.setRail r x).repair = s.repair := rfl
@[simp] theorem State.setRail_engines (s : State) (r : Fin 8) (x : Rail) : (s.setRail r x).engines = s.engines := rfl
@[simp] theorem State.setRail_flip (s : State) (r : Fin 8) (x : Rail) : (s.setRail r x).flip = s.flip := rfl
@[simp] theorem State.setRail_adopt (s : State) (r : Fin 8) (x : Rail) : (s.setRail r x).adopt = s.adopt := rfl
@[simp] theorem State.setRail_resetLow (s : State) (r : Fin 8) (x : Rail) : (s.setRail r x).resetLow = s.resetLow := rfl
@[simp] theorem State.setRail_fselLow (s : State) (r : Fin 8) (x : Rail) : (s.setRail r x).fselLow = s.fselLow := rfl
@[simp] theorem State.setRail_feed (s : State) (r : Fin 8) (x : Rail) : (s.setRail r x).feed = s.feed := rfl
@[simp] theorem State.setRail_counters (s : State) (r : Fin 8) (x : Rail) : (s.setRail r x).counters = s.counters := rfl
@[simp] theorem State.setRail_alerts (s : State) (r : Fin 8) (x : Rail) : (s.setRail r x).alerts = s.alerts := rfl

/-! ### State.setEngine -/

@[simp] theorem State.setEngine_pending (s : State) (k : Fin 4) (e : Engine) : (s.setEngine k e).pending = s.pending := rfl
@[simp] theorem State.setEngine_now (s : State) (k : Fin 4) (e : Engine) : (s.setEngine k e).now = s.now := rfl
@[simp] theorem State.setEngine_draws (s : State) (k : Fin 4) (e : Engine) : (s.setEngine k e).draws = s.draws := rfl
@[simp] theorem State.setEngine_power (s : State) (k : Fin 4) (e : Engine) : (s.setEngine k e).power = s.power := rfl
@[simp] theorem State.setEngine_phase (s : State) (k : Fin 4) (e : Engine) : (s.setEngine k e).phase = s.phase := rfl
@[simp] theorem State.setEngine_listenUntil (s : State) (k : Fin 4) (e : Engine) : (s.setEngine k e).listenUntil = s.listenUntil := rfl
@[simp] theorem State.setEngine_straps (s : State) (k : Fin 4) (e : Engine) : (s.setEngine k e).straps = s.straps := rfl
@[simp] theorem State.setEngine_mem (s : State) (k : Fin 4) (e : Engine) : (s.setEngine k e).mem = s.mem := rfl
@[simp] theorem State.setEngine_dirFlash (s : State) (k : Fin 4) (e : Engine) : (s.setEngine k e).dirFlash = s.dirFlash := rfl
@[simp] theorem State.setEngine_lockFlash (s : State) (k : Fin 4) (e : Engine) : (s.setEngine k e).lockFlash = s.lockFlash := rfl
@[simp] theorem State.setEngine_bankA (s : State) (k : Fin 4) (e : Engine) : (s.setEngine k e).bankA = s.bankA := rfl
@[simp] theorem State.setEngine_bankB (s : State) (k : Fin 4) (e : Engine) : (s.setEngine k e).bankB = s.bankB := rfl
@[simp] theorem State.setEngine_holdQueue (s : State) (k : Fin 4) (e : Engine) : (s.setEngine k e).holdQueue = s.holdQueue := rfl
@[simp] theorem State.setEngine_unstored (s : State) (k : Fin 4) (e : Engine) : (s.setEngine k e).unstored = s.unstored := rfl
@[simp] theorem State.setEngine_flash (s : State) (k : Fin 4) (e : Engine) : (s.setEngine k e).flash = s.flash := rfl
@[simp] theorem State.setEngine_dir (s : State) (k : Fin 4) (e : Engine) : (s.setEngine k e).dir = s.dir := rfl
@[simp] theorem State.setEngine_trunk (s : State) (k : Fin 4) (e : Engine) : (s.setEngine k e).trunk = s.trunk := rfl
@[simp] theorem State.setEngine_repair (s : State) (k : Fin 4) (e : Engine) : (s.setEngine k e).repair = s.repair := rfl
@[simp] theorem State.setEngine_rails (s : State) (k : Fin 4) (e : Engine) : (s.setEngine k e).rails = s.rails := rfl
@[simp] theorem State.setEngine_flip (s : State) (k : Fin 4) (e : Engine) : (s.setEngine k e).flip = s.flip := rfl
@[simp] theorem State.setEngine_adopt (s : State) (k : Fin 4) (e : Engine) : (s.setEngine k e).adopt = s.adopt := rfl
@[simp] theorem State.setEngine_resetLow (s : State) (k : Fin 4) (e : Engine) : (s.setEngine k e).resetLow = s.resetLow := rfl
@[simp] theorem State.setEngine_fselLow (s : State) (k : Fin 4) (e : Engine) : (s.setEngine k e).fselLow = s.fselLow := rfl
@[simp] theorem State.setEngine_feed (s : State) (k : Fin 4) (e : Engine) : (s.setEngine k e).feed = s.feed := rfl
@[simp] theorem State.setEngine_counters (s : State) (k : Fin 4) (e : Engine) : (s.setEngine k e).counters = s.counters := rfl
@[simp] theorem State.setEngine_alerts (s : State) (k : Fin 4) (e : Engine) : (s.setEngine k e).alerts = s.alerts := rfl

/-! ### State.setActivity -/

@[simp] theorem State.setActivity_pending (s : State) (k : Fin 4) (a : Activity) : (s.setActivity k a).pending = s.pending := rfl
@[simp] theorem State.setActivity_now (s : State) (k : Fin 4) (a : Activity) : (s.setActivity k a).now = s.now := rfl
@[simp] theorem State.setActivity_draws (s : State) (k : Fin 4) (a : Activity) : (s.setActivity k a).draws = s.draws := rfl
@[simp] theorem State.setActivity_power (s : State) (k : Fin 4) (a : Activity) : (s.setActivity k a).power = s.power := rfl
@[simp] theorem State.setActivity_phase (s : State) (k : Fin 4) (a : Activity) : (s.setActivity k a).phase = s.phase := rfl
@[simp] theorem State.setActivity_listenUntil (s : State) (k : Fin 4) (a : Activity) : (s.setActivity k a).listenUntil = s.listenUntil := rfl
@[simp] theorem State.setActivity_straps (s : State) (k : Fin 4) (a : Activity) : (s.setActivity k a).straps = s.straps := rfl
@[simp] theorem State.setActivity_mem (s : State) (k : Fin 4) (a : Activity) : (s.setActivity k a).mem = s.mem := rfl
@[simp] theorem State.setActivity_dirFlash (s : State) (k : Fin 4) (a : Activity) : (s.setActivity k a).dirFlash = s.dirFlash := rfl
@[simp] theorem State.setActivity_lockFlash (s : State) (k : Fin 4) (a : Activity) : (s.setActivity k a).lockFlash = s.lockFlash := rfl
@[simp] theorem State.setActivity_bankA (s : State) (k : Fin 4) (a : Activity) : (s.setActivity k a).bankA = s.bankA := rfl
@[simp] theorem State.setActivity_bankB (s : State) (k : Fin 4) (a : Activity) : (s.setActivity k a).bankB = s.bankB := rfl
@[simp] theorem State.setActivity_holdQueue (s : State) (k : Fin 4) (a : Activity) : (s.setActivity k a).holdQueue = s.holdQueue := rfl
@[simp] theorem State.setActivity_unstored (s : State) (k : Fin 4) (a : Activity) : (s.setActivity k a).unstored = s.unstored := rfl
@[simp] theorem State.setActivity_flash (s : State) (k : Fin 4) (a : Activity) : (s.setActivity k a).flash = s.flash := rfl
@[simp] theorem State.setActivity_dir (s : State) (k : Fin 4) (a : Activity) : (s.setActivity k a).dir = s.dir := rfl
@[simp] theorem State.setActivity_trunk (s : State) (k : Fin 4) (a : Activity) : (s.setActivity k a).trunk = s.trunk := rfl
@[simp] theorem State.setActivity_repair (s : State) (k : Fin 4) (a : Activity) : (s.setActivity k a).repair = s.repair := rfl
@[simp] theorem State.setActivity_rails (s : State) (k : Fin 4) (a : Activity) : (s.setActivity k a).rails = s.rails := rfl
@[simp] theorem State.setActivity_flip (s : State) (k : Fin 4) (a : Activity) : (s.setActivity k a).flip = s.flip := rfl
@[simp] theorem State.setActivity_adopt (s : State) (k : Fin 4) (a : Activity) : (s.setActivity k a).adopt = s.adopt := rfl
@[simp] theorem State.setActivity_resetLow (s : State) (k : Fin 4) (a : Activity) : (s.setActivity k a).resetLow = s.resetLow := rfl
@[simp] theorem State.setActivity_fselLow (s : State) (k : Fin 4) (a : Activity) : (s.setActivity k a).fselLow = s.fselLow := rfl
@[simp] theorem State.setActivity_feed (s : State) (k : Fin 4) (a : Activity) : (s.setActivity k a).feed = s.feed := rfl
@[simp] theorem State.setActivity_counters (s : State) (k : Fin 4) (a : Activity) : (s.setActivity k a).counters = s.counters := rfl
@[simp] theorem State.setActivity_alerts (s : State) (k : Fin 4) (a : Activity) : (s.setActivity k a).alerts = s.alerts := rfl

/-! ### onRail -/

@[simp] theorem onRail_pending (r : Fin 8) (f : Rail → Rail) (s : State) : (onRail r f s).pending = s.pending := rfl
@[simp] theorem onRail_now (r : Fin 8) (f : Rail → Rail) (s : State) : (onRail r f s).now = s.now := rfl
@[simp] theorem onRail_draws (r : Fin 8) (f : Rail → Rail) (s : State) : (onRail r f s).draws = s.draws := rfl
@[simp] theorem onRail_power (r : Fin 8) (f : Rail → Rail) (s : State) : (onRail r f s).power = s.power := rfl
@[simp] theorem onRail_phase (r : Fin 8) (f : Rail → Rail) (s : State) : (onRail r f s).phase = s.phase := rfl
@[simp] theorem onRail_listenUntil (r : Fin 8) (f : Rail → Rail) (s : State) : (onRail r f s).listenUntil = s.listenUntil := rfl
@[simp] theorem onRail_straps (r : Fin 8) (f : Rail → Rail) (s : State) : (onRail r f s).straps = s.straps := rfl
@[simp] theorem onRail_mem (r : Fin 8) (f : Rail → Rail) (s : State) : (onRail r f s).mem = s.mem := rfl
@[simp] theorem onRail_dirFlash (r : Fin 8) (f : Rail → Rail) (s : State) : (onRail r f s).dirFlash = s.dirFlash := rfl
@[simp] theorem onRail_lockFlash (r : Fin 8) (f : Rail → Rail) (s : State) : (onRail r f s).lockFlash = s.lockFlash := rfl
@[simp] theorem onRail_bankA (r : Fin 8) (f : Rail → Rail) (s : State) : (onRail r f s).bankA = s.bankA := rfl
@[simp] theorem onRail_bankB (r : Fin 8) (f : Rail → Rail) (s : State) : (onRail r f s).bankB = s.bankB := rfl
@[simp] theorem onRail_holdQueue (r : Fin 8) (f : Rail → Rail) (s : State) : (onRail r f s).holdQueue = s.holdQueue := rfl
@[simp] theorem onRail_unstored (r : Fin 8) (f : Rail → Rail) (s : State) : (onRail r f s).unstored = s.unstored := rfl
@[simp] theorem onRail_flash (r : Fin 8) (f : Rail → Rail) (s : State) : (onRail r f s).flash = s.flash := rfl
@[simp] theorem onRail_dir (r : Fin 8) (f : Rail → Rail) (s : State) : (onRail r f s).dir = s.dir := rfl
@[simp] theorem onRail_trunk (r : Fin 8) (f : Rail → Rail) (s : State) : (onRail r f s).trunk = s.trunk := rfl
@[simp] theorem onRail_repair (r : Fin 8) (f : Rail → Rail) (s : State) : (onRail r f s).repair = s.repair := rfl
@[simp] theorem onRail_engines (r : Fin 8) (f : Rail → Rail) (s : State) : (onRail r f s).engines = s.engines := rfl
@[simp] theorem onRail_flip (r : Fin 8) (f : Rail → Rail) (s : State) : (onRail r f s).flip = s.flip := rfl
@[simp] theorem onRail_adopt (r : Fin 8) (f : Rail → Rail) (s : State) : (onRail r f s).adopt = s.adopt := rfl
@[simp] theorem onRail_resetLow (r : Fin 8) (f : Rail → Rail) (s : State) : (onRail r f s).resetLow = s.resetLow := rfl
@[simp] theorem onRail_fselLow (r : Fin 8) (f : Rail → Rail) (s : State) : (onRail r f s).fselLow = s.fselLow := rfl
@[simp] theorem onRail_feed (r : Fin 8) (f : Rail → Rail) (s : State) : (onRail r f s).feed = s.feed := rfl
@[simp] theorem onRail_counters (r : Fin 8) (f : Rail → Rail) (s : State) : (onRail r f s).counters = s.counters := rfl
@[simp] theorem onRail_alerts (r : Fin 8) (f : Rail → Rail) (s : State) : (onRail r f s).alerts = s.alerts := rfl

/-! ### changeJob -/

@[simp] theorem changeJob_pending (r : Fin 8) (k : JobKind) (p : Fin 64) (f : Job → Job) (s : State) : (changeJob r k p f s).pending = s.pending := rfl
@[simp] theorem changeJob_now (r : Fin 8) (k : JobKind) (p : Fin 64) (f : Job → Job) (s : State) : (changeJob r k p f s).now = s.now := rfl
@[simp] theorem changeJob_draws (r : Fin 8) (k : JobKind) (p : Fin 64) (f : Job → Job) (s : State) : (changeJob r k p f s).draws = s.draws := rfl
@[simp] theorem changeJob_power (r : Fin 8) (k : JobKind) (p : Fin 64) (f : Job → Job) (s : State) : (changeJob r k p f s).power = s.power := rfl
@[simp] theorem changeJob_phase (r : Fin 8) (k : JobKind) (p : Fin 64) (f : Job → Job) (s : State) : (changeJob r k p f s).phase = s.phase := rfl
@[simp] theorem changeJob_listenUntil (r : Fin 8) (k : JobKind) (p : Fin 64) (f : Job → Job) (s : State) : (changeJob r k p f s).listenUntil = s.listenUntil := rfl
@[simp] theorem changeJob_straps (r : Fin 8) (k : JobKind) (p : Fin 64) (f : Job → Job) (s : State) : (changeJob r k p f s).straps = s.straps := rfl
@[simp] theorem changeJob_mem (r : Fin 8) (k : JobKind) (p : Fin 64) (f : Job → Job) (s : State) : (changeJob r k p f s).mem = s.mem := rfl
@[simp] theorem changeJob_dirFlash (r : Fin 8) (k : JobKind) (p : Fin 64) (f : Job → Job) (s : State) : (changeJob r k p f s).dirFlash = s.dirFlash := rfl
@[simp] theorem changeJob_lockFlash (r : Fin 8) (k : JobKind) (p : Fin 64) (f : Job → Job) (s : State) : (changeJob r k p f s).lockFlash = s.lockFlash := rfl
@[simp] theorem changeJob_bankA (r : Fin 8) (k : JobKind) (p : Fin 64) (f : Job → Job) (s : State) : (changeJob r k p f s).bankA = s.bankA := rfl
@[simp] theorem changeJob_bankB (r : Fin 8) (k : JobKind) (p : Fin 64) (f : Job → Job) (s : State) : (changeJob r k p f s).bankB = s.bankB := rfl
@[simp] theorem changeJob_holdQueue (r : Fin 8) (k : JobKind) (p : Fin 64) (f : Job → Job) (s : State) : (changeJob r k p f s).holdQueue = s.holdQueue := rfl
@[simp] theorem changeJob_unstored (r : Fin 8) (k : JobKind) (p : Fin 64) (f : Job → Job) (s : State) : (changeJob r k p f s).unstored = s.unstored := rfl
@[simp] theorem changeJob_flash (r : Fin 8) (k : JobKind) (p : Fin 64) (f : Job → Job) (s : State) : (changeJob r k p f s).flash = s.flash := rfl
@[simp] theorem changeJob_dir (r : Fin 8) (k : JobKind) (p : Fin 64) (f : Job → Job) (s : State) : (changeJob r k p f s).dir = s.dir := rfl
@[simp] theorem changeJob_trunk (r : Fin 8) (k : JobKind) (p : Fin 64) (f : Job → Job) (s : State) : (changeJob r k p f s).trunk = s.trunk := rfl
@[simp] theorem changeJob_repair (r : Fin 8) (k : JobKind) (p : Fin 64) (f : Job → Job) (s : State) : (changeJob r k p f s).repair = s.repair := rfl
@[simp] theorem changeJob_engines (r : Fin 8) (k : JobKind) (p : Fin 64) (f : Job → Job) (s : State) : (changeJob r k p f s).engines = s.engines := rfl
@[simp] theorem changeJob_flip (r : Fin 8) (k : JobKind) (p : Fin 64) (f : Job → Job) (s : State) : (changeJob r k p f s).flip = s.flip := rfl
@[simp] theorem changeJob_adopt (r : Fin 8) (k : JobKind) (p : Fin 64) (f : Job → Job) (s : State) : (changeJob r k p f s).adopt = s.adopt := rfl
@[simp] theorem changeJob_resetLow (r : Fin 8) (k : JobKind) (p : Fin 64) (f : Job → Job) (s : State) : (changeJob r k p f s).resetLow = s.resetLow := rfl
@[simp] theorem changeJob_fselLow (r : Fin 8) (k : JobKind) (p : Fin 64) (f : Job → Job) (s : State) : (changeJob r k p f s).fselLow = s.fselLow := rfl
@[simp] theorem changeJob_feed (r : Fin 8) (k : JobKind) (p : Fin 64) (f : Job → Job) (s : State) : (changeJob r k p f s).feed = s.feed := rfl
@[simp] theorem changeJob_counters (r : Fin 8) (k : JobKind) (p : Fin 64) (f : Job → Job) (s : State) : (changeJob r k p f s).counters = s.counters := rfl
@[simp] theorem changeJob_alerts (r : Fin 8) (k : JobKind) (p : Fin 64) (f : Job → Job) (s : State) : (changeJob r k p f s).alerts = s.alerts := rfl

/-! ### setLine -/

@[simp] theorem setLine_pending (l : LineState) (s : State) : (setLine l s).pending = s.pending := rfl
@[simp] theorem setLine_now (l : LineState) (s : State) : (setLine l s).now = s.now := rfl
@[simp] theorem setLine_draws (l : LineState) (s : State) : (setLine l s).draws = s.draws := rfl
@[simp] theorem setLine_power (l : LineState) (s : State) : (setLine l s).power = s.power := rfl
@[simp] theorem setLine_phase (l : LineState) (s : State) : (setLine l s).phase = s.phase := rfl
@[simp] theorem setLine_listenUntil (l : LineState) (s : State) : (setLine l s).listenUntil = s.listenUntil := rfl
@[simp] theorem setLine_straps (l : LineState) (s : State) : (setLine l s).straps = s.straps := rfl
@[simp] theorem setLine_mem (l : LineState) (s : State) : (setLine l s).mem = s.mem := rfl
@[simp] theorem setLine_dirFlash (l : LineState) (s : State) : (setLine l s).dirFlash = s.dirFlash := rfl
@[simp] theorem setLine_lockFlash (l : LineState) (s : State) : (setLine l s).lockFlash = s.lockFlash := rfl
@[simp] theorem setLine_bankA (l : LineState) (s : State) : (setLine l s).bankA = s.bankA := rfl
@[simp] theorem setLine_bankB (l : LineState) (s : State) : (setLine l s).bankB = s.bankB := rfl
@[simp] theorem setLine_holdQueue (l : LineState) (s : State) : (setLine l s).holdQueue = s.holdQueue := rfl
@[simp] theorem setLine_unstored (l : LineState) (s : State) : (setLine l s).unstored = s.unstored := rfl
@[simp] theorem setLine_flash (l : LineState) (s : State) : (setLine l s).flash = s.flash := rfl
@[simp] theorem setLine_dir (l : LineState) (s : State) : (setLine l s).dir = s.dir := rfl
@[simp] theorem setLine_repair (l : LineState) (s : State) : (setLine l s).repair = s.repair := rfl
@[simp] theorem setLine_rails (l : LineState) (s : State) : (setLine l s).rails = s.rails := rfl
@[simp] theorem setLine_engines (l : LineState) (s : State) : (setLine l s).engines = s.engines := rfl
@[simp] theorem setLine_flip (l : LineState) (s : State) : (setLine l s).flip = s.flip := rfl
@[simp] theorem setLine_adopt (l : LineState) (s : State) : (setLine l s).adopt = s.adopt := rfl
@[simp] theorem setLine_resetLow (l : LineState) (s : State) : (setLine l s).resetLow = s.resetLow := rfl
@[simp] theorem setLine_fselLow (l : LineState) (s : State) : (setLine l s).fselLow = s.fselLow := rfl
@[simp] theorem setLine_feed (l : LineState) (s : State) : (setLine l s).feed = s.feed := rfl
@[simp] theorem setLine_counters (l : LineState) (s : State) : (setLine l s).counters = s.counters := rfl
@[simp] theorem setLine_alerts (l : LineState) (s : State) : (setLine l s).alerts = s.alerts := rfl

/-! ### enqueueFrame -/

@[simp] theorem enqueueFrame_pending (g : Tag) (f : Frame) (s : State) : (enqueueFrame g f s).pending = s.pending := rfl
@[simp] theorem enqueueFrame_now (g : Tag) (f : Frame) (s : State) : (enqueueFrame g f s).now = s.now := rfl
@[simp] theorem enqueueFrame_draws (g : Tag) (f : Frame) (s : State) : (enqueueFrame g f s).draws = s.draws := rfl
@[simp] theorem enqueueFrame_power (g : Tag) (f : Frame) (s : State) : (enqueueFrame g f s).power = s.power := rfl
@[simp] theorem enqueueFrame_phase (g : Tag) (f : Frame) (s : State) : (enqueueFrame g f s).phase = s.phase := rfl
@[simp] theorem enqueueFrame_listenUntil (g : Tag) (f : Frame) (s : State) : (enqueueFrame g f s).listenUntil = s.listenUntil := rfl
@[simp] theorem enqueueFrame_straps (g : Tag) (f : Frame) (s : State) : (enqueueFrame g f s).straps = s.straps := rfl
@[simp] theorem enqueueFrame_mem (g : Tag) (f : Frame) (s : State) : (enqueueFrame g f s).mem = s.mem := rfl
@[simp] theorem enqueueFrame_dirFlash (g : Tag) (f : Frame) (s : State) : (enqueueFrame g f s).dirFlash = s.dirFlash := rfl
@[simp] theorem enqueueFrame_lockFlash (g : Tag) (f : Frame) (s : State) : (enqueueFrame g f s).lockFlash = s.lockFlash := rfl
@[simp] theorem enqueueFrame_bankA (g : Tag) (f : Frame) (s : State) : (enqueueFrame g f s).bankA = s.bankA := rfl
@[simp] theorem enqueueFrame_bankB (g : Tag) (f : Frame) (s : State) : (enqueueFrame g f s).bankB = s.bankB := rfl
@[simp] theorem enqueueFrame_holdQueue (g : Tag) (f : Frame) (s : State) : (enqueueFrame g f s).holdQueue = s.holdQueue := rfl
@[simp] theorem enqueueFrame_unstored (g : Tag) (f : Frame) (s : State) : (enqueueFrame g f s).unstored = s.unstored := rfl
@[simp] theorem enqueueFrame_flash (g : Tag) (f : Frame) (s : State) : (enqueueFrame g f s).flash = s.flash := rfl
@[simp] theorem enqueueFrame_dir (g : Tag) (f : Frame) (s : State) : (enqueueFrame g f s).dir = s.dir := rfl
@[simp] theorem enqueueFrame_repair (g : Tag) (f : Frame) (s : State) : (enqueueFrame g f s).repair = s.repair := rfl
@[simp] theorem enqueueFrame_rails (g : Tag) (f : Frame) (s : State) : (enqueueFrame g f s).rails = s.rails := rfl
@[simp] theorem enqueueFrame_engines (g : Tag) (f : Frame) (s : State) : (enqueueFrame g f s).engines = s.engines := rfl
@[simp] theorem enqueueFrame_flip (g : Tag) (f : Frame) (s : State) : (enqueueFrame g f s).flip = s.flip := rfl
@[simp] theorem enqueueFrame_adopt (g : Tag) (f : Frame) (s : State) : (enqueueFrame g f s).adopt = s.adopt := rfl
@[simp] theorem enqueueFrame_resetLow (g : Tag) (f : Frame) (s : State) : (enqueueFrame g f s).resetLow = s.resetLow := rfl
@[simp] theorem enqueueFrame_fselLow (g : Tag) (f : Frame) (s : State) : (enqueueFrame g f s).fselLow = s.fselLow := rfl
@[simp] theorem enqueueFrame_feed (g : Tag) (f : Frame) (s : State) : (enqueueFrame g f s).feed = s.feed := rfl
@[simp] theorem enqueueFrame_counters (g : Tag) (f : Frame) (s : State) : (enqueueFrame g f s).counters = s.counters := rfl
@[simp] theorem enqueueFrame_alerts (g : Tag) (f : Frame) (s : State) : (enqueueFrame g f s).alerts = s.alerts := rfl

/-! ### dropWaiter -/

@[simp] theorem dropWaiter_pending (p : Producer) (s : State) : (dropWaiter p s).pending = s.pending := rfl
@[simp] theorem dropWaiter_now (p : Producer) (s : State) : (dropWaiter p s).now = s.now := rfl
@[simp] theorem dropWaiter_draws (p : Producer) (s : State) : (dropWaiter p s).draws = s.draws := rfl
@[simp] theorem dropWaiter_power (p : Producer) (s : State) : (dropWaiter p s).power = s.power := rfl
@[simp] theorem dropWaiter_phase (p : Producer) (s : State) : (dropWaiter p s).phase = s.phase := rfl
@[simp] theorem dropWaiter_listenUntil (p : Producer) (s : State) : (dropWaiter p s).listenUntil = s.listenUntil := rfl
@[simp] theorem dropWaiter_straps (p : Producer) (s : State) : (dropWaiter p s).straps = s.straps := rfl
@[simp] theorem dropWaiter_mem (p : Producer) (s : State) : (dropWaiter p s).mem = s.mem := rfl
@[simp] theorem dropWaiter_dirFlash (p : Producer) (s : State) : (dropWaiter p s).dirFlash = s.dirFlash := rfl
@[simp] theorem dropWaiter_lockFlash (p : Producer) (s : State) : (dropWaiter p s).lockFlash = s.lockFlash := rfl
@[simp] theorem dropWaiter_bankA (p : Producer) (s : State) : (dropWaiter p s).bankA = s.bankA := rfl
@[simp] theorem dropWaiter_bankB (p : Producer) (s : State) : (dropWaiter p s).bankB = s.bankB := rfl
@[simp] theorem dropWaiter_holdQueue (p : Producer) (s : State) : (dropWaiter p s).holdQueue = s.holdQueue := rfl
@[simp] theorem dropWaiter_unstored (p : Producer) (s : State) : (dropWaiter p s).unstored = s.unstored := rfl
@[simp] theorem dropWaiter_flash (p : Producer) (s : State) : (dropWaiter p s).flash = s.flash := rfl
@[simp] theorem dropWaiter_dir (p : Producer) (s : State) : (dropWaiter p s).dir = s.dir := rfl
@[simp] theorem dropWaiter_repair (p : Producer) (s : State) : (dropWaiter p s).repair = s.repair := rfl
@[simp] theorem dropWaiter_rails (p : Producer) (s : State) : (dropWaiter p s).rails = s.rails := rfl
@[simp] theorem dropWaiter_engines (p : Producer) (s : State) : (dropWaiter p s).engines = s.engines := rfl
@[simp] theorem dropWaiter_flip (p : Producer) (s : State) : (dropWaiter p s).flip = s.flip := rfl
@[simp] theorem dropWaiter_adopt (p : Producer) (s : State) : (dropWaiter p s).adopt = s.adopt := rfl
@[simp] theorem dropWaiter_resetLow (p : Producer) (s : State) : (dropWaiter p s).resetLow = s.resetLow := rfl
@[simp] theorem dropWaiter_fselLow (p : Producer) (s : State) : (dropWaiter p s).fselLow = s.fselLow := rfl
@[simp] theorem dropWaiter_feed (p : Producer) (s : State) : (dropWaiter p s).feed = s.feed := rfl
@[simp] theorem dropWaiter_counters (p : Producer) (s : State) : (dropWaiter p s).counters = s.counters := rfl
@[simp] theorem dropWaiter_alerts (p : Producer) (s : State) : (dropWaiter p s).alerts = s.alerts := rfl

/-! ### retag -/

@[simp] theorem retag_pending (p : QueuedFrame → Bool) (g : Tag) (s : State) : (retag p g s).pending = s.pending := rfl
@[simp] theorem retag_now (p : QueuedFrame → Bool) (g : Tag) (s : State) : (retag p g s).now = s.now := rfl
@[simp] theorem retag_draws (p : QueuedFrame → Bool) (g : Tag) (s : State) : (retag p g s).draws = s.draws := rfl
@[simp] theorem retag_power (p : QueuedFrame → Bool) (g : Tag) (s : State) : (retag p g s).power = s.power := rfl
@[simp] theorem retag_phase (p : QueuedFrame → Bool) (g : Tag) (s : State) : (retag p g s).phase = s.phase := rfl
@[simp] theorem retag_listenUntil (p : QueuedFrame → Bool) (g : Tag) (s : State) : (retag p g s).listenUntil = s.listenUntil := rfl
@[simp] theorem retag_straps (p : QueuedFrame → Bool) (g : Tag) (s : State) : (retag p g s).straps = s.straps := rfl
@[simp] theorem retag_mem (p : QueuedFrame → Bool) (g : Tag) (s : State) : (retag p g s).mem = s.mem := rfl
@[simp] theorem retag_dirFlash (p : QueuedFrame → Bool) (g : Tag) (s : State) : (retag p g s).dirFlash = s.dirFlash := rfl
@[simp] theorem retag_lockFlash (p : QueuedFrame → Bool) (g : Tag) (s : State) : (retag p g s).lockFlash = s.lockFlash := rfl
@[simp] theorem retag_bankA (p : QueuedFrame → Bool) (g : Tag) (s : State) : (retag p g s).bankA = s.bankA := rfl
@[simp] theorem retag_bankB (p : QueuedFrame → Bool) (g : Tag) (s : State) : (retag p g s).bankB = s.bankB := rfl
@[simp] theorem retag_holdQueue (p : QueuedFrame → Bool) (g : Tag) (s : State) : (retag p g s).holdQueue = s.holdQueue := rfl
@[simp] theorem retag_unstored (p : QueuedFrame → Bool) (g : Tag) (s : State) : (retag p g s).unstored = s.unstored := rfl
@[simp] theorem retag_flash (p : QueuedFrame → Bool) (g : Tag) (s : State) : (retag p g s).flash = s.flash := rfl
@[simp] theorem retag_dir (p : QueuedFrame → Bool) (g : Tag) (s : State) : (retag p g s).dir = s.dir := rfl
@[simp] theorem retag_repair (p : QueuedFrame → Bool) (g : Tag) (s : State) : (retag p g s).repair = s.repair := rfl
@[simp] theorem retag_rails (p : QueuedFrame → Bool) (g : Tag) (s : State) : (retag p g s).rails = s.rails := rfl
@[simp] theorem retag_engines (p : QueuedFrame → Bool) (g : Tag) (s : State) : (retag p g s).engines = s.engines := rfl
@[simp] theorem retag_flip (p : QueuedFrame → Bool) (g : Tag) (s : State) : (retag p g s).flip = s.flip := rfl
@[simp] theorem retag_adopt (p : QueuedFrame → Bool) (g : Tag) (s : State) : (retag p g s).adopt = s.adopt := rfl
@[simp] theorem retag_resetLow (p : QueuedFrame → Bool) (g : Tag) (s : State) : (retag p g s).resetLow = s.resetLow := rfl
@[simp] theorem retag_fselLow (p : QueuedFrame → Bool) (g : Tag) (s : State) : (retag p g s).fselLow = s.fselLow := rfl
@[simp] theorem retag_feed (p : QueuedFrame → Bool) (g : Tag) (s : State) : (retag p g s).feed = s.feed := rfl
@[simp] theorem retag_counters (p : QueuedFrame → Bool) (g : Tag) (s : State) : (retag p g s).counters = s.counters := rfl
@[simp] theorem retag_alerts (p : QueuedFrame → Bool) (g : Tag) (s : State) : (retag p g s).alerts = s.alerts := rfl

/-! ### clearLatch -/

@[simp] theorem clearLatch_pending (s : State) : (clearLatch s).pending = s.pending := rfl
@[simp] theorem clearLatch_now (s : State) : (clearLatch s).now = s.now := rfl
@[simp] theorem clearLatch_draws (s : State) : (clearLatch s).draws = s.draws := rfl
@[simp] theorem clearLatch_power (s : State) : (clearLatch s).power = s.power := rfl
@[simp] theorem clearLatch_phase (s : State) : (clearLatch s).phase = s.phase := rfl
@[simp] theorem clearLatch_listenUntil (s : State) : (clearLatch s).listenUntil = s.listenUntil := rfl
@[simp] theorem clearLatch_straps (s : State) : (clearLatch s).straps = s.straps := rfl
@[simp] theorem clearLatch_mem (s : State) : (clearLatch s).mem = s.mem := rfl
@[simp] theorem clearLatch_dirFlash (s : State) : (clearLatch s).dirFlash = s.dirFlash := rfl
@[simp] theorem clearLatch_lockFlash (s : State) : (clearLatch s).lockFlash = s.lockFlash := rfl
@[simp] theorem clearLatch_bankA (s : State) : (clearLatch s).bankA = s.bankA := rfl
@[simp] theorem clearLatch_bankB (s : State) : (clearLatch s).bankB = s.bankB := rfl
@[simp] theorem clearLatch_holdQueue (s : State) : (clearLatch s).holdQueue = s.holdQueue := rfl
@[simp] theorem clearLatch_unstored (s : State) : (clearLatch s).unstored = s.unstored := rfl
@[simp] theorem clearLatch_flash (s : State) : (clearLatch s).flash = s.flash := rfl
@[simp] theorem clearLatch_trunk (s : State) : (clearLatch s).trunk = s.trunk := rfl
@[simp] theorem clearLatch_repair (s : State) : (clearLatch s).repair = s.repair := rfl
@[simp] theorem clearLatch_rails (s : State) : (clearLatch s).rails = s.rails := rfl
@[simp] theorem clearLatch_engines (s : State) : (clearLatch s).engines = s.engines := rfl
@[simp] theorem clearLatch_flip (s : State) : (clearLatch s).flip = s.flip := rfl
@[simp] theorem clearLatch_adopt (s : State) : (clearLatch s).adopt = s.adopt := rfl
@[simp] theorem clearLatch_resetLow (s : State) : (clearLatch s).resetLow = s.resetLow := rfl
@[simp] theorem clearLatch_fselLow (s : State) : (clearLatch s).fselLow = s.fselLow := rfl
@[simp] theorem clearLatch_feed (s : State) : (clearLatch s).feed = s.feed := rfl
@[simp] theorem clearLatch_counters (s : State) : (clearLatch s).counters = s.counters := rfl
@[simp] theorem clearLatch_alerts (s : State) : (clearLatch s).alerts = s.alerts := rfl

/-! ### popHead -/

@[simp] theorem popHead_pending (s : State) : (popHead s).pending = s.pending := rfl
@[simp] theorem popHead_now (s : State) : (popHead s).now = s.now := rfl
@[simp] theorem popHead_draws (s : State) : (popHead s).draws = s.draws := rfl
@[simp] theorem popHead_power (s : State) : (popHead s).power = s.power := rfl
@[simp] theorem popHead_phase (s : State) : (popHead s).phase = s.phase := rfl
@[simp] theorem popHead_listenUntil (s : State) : (popHead s).listenUntil = s.listenUntil := rfl
@[simp] theorem popHead_straps (s : State) : (popHead s).straps = s.straps := rfl
@[simp] theorem popHead_mem (s : State) : (popHead s).mem = s.mem := rfl
@[simp] theorem popHead_dirFlash (s : State) : (popHead s).dirFlash = s.dirFlash := rfl
@[simp] theorem popHead_lockFlash (s : State) : (popHead s).lockFlash = s.lockFlash := rfl
@[simp] theorem popHead_bankA (s : State) : (popHead s).bankA = s.bankA := rfl
@[simp] theorem popHead_bankB (s : State) : (popHead s).bankB = s.bankB := rfl
@[simp] theorem popHead_holdQueue (s : State) : (popHead s).holdQueue = s.holdQueue := rfl
@[simp] theorem popHead_unstored (s : State) : (popHead s).unstored = s.unstored := rfl
@[simp] theorem popHead_flash (s : State) : (popHead s).flash = s.flash := rfl
@[simp] theorem popHead_dir (s : State) : (popHead s).dir = s.dir := rfl
@[simp] theorem popHead_trunk (s : State) : (popHead s).trunk = s.trunk := rfl
@[simp] theorem popHead_repair (s : State) : (popHead s).repair = s.repair := rfl
@[simp] theorem popHead_rails (s : State) : (popHead s).rails = s.rails := rfl
@[simp] theorem popHead_engines (s : State) : (popHead s).engines = s.engines := rfl
@[simp] theorem popHead_flip (s : State) : (popHead s).flip = s.flip := rfl
@[simp] theorem popHead_adopt (s : State) : (popHead s).adopt = s.adopt := rfl
@[simp] theorem popHead_counters (s : State) : (popHead s).counters = s.counters := rfl
@[simp] theorem popHead_alerts (s : State) : (popHead s).alerts = s.alerts := rfl

/-! ### placeResult -/

@[simp] theorem placeResult_pending (c : FeedCommand) (o : ResultCode) (b : List Byte) (s : State) : (placeResult c o b s).pending = s.pending := rfl
@[simp] theorem placeResult_now (c : FeedCommand) (o : ResultCode) (b : List Byte) (s : State) : (placeResult c o b s).now = s.now := rfl
@[simp] theorem placeResult_draws (c : FeedCommand) (o : ResultCode) (b : List Byte) (s : State) : (placeResult c o b s).draws = s.draws := rfl
@[simp] theorem placeResult_power (c : FeedCommand) (o : ResultCode) (b : List Byte) (s : State) : (placeResult c o b s).power = s.power := rfl
@[simp] theorem placeResult_phase (c : FeedCommand) (o : ResultCode) (b : List Byte) (s : State) : (placeResult c o b s).phase = s.phase := rfl
@[simp] theorem placeResult_listenUntil (c : FeedCommand) (o : ResultCode) (b : List Byte) (s : State) : (placeResult c o b s).listenUntil = s.listenUntil := rfl
@[simp] theorem placeResult_straps (c : FeedCommand) (o : ResultCode) (b : List Byte) (s : State) : (placeResult c o b s).straps = s.straps := rfl
@[simp] theorem placeResult_mem (c : FeedCommand) (o : ResultCode) (b : List Byte) (s : State) : (placeResult c o b s).mem = s.mem := rfl
@[simp] theorem placeResult_dirFlash (c : FeedCommand) (o : ResultCode) (b : List Byte) (s : State) : (placeResult c o b s).dirFlash = s.dirFlash := rfl
@[simp] theorem placeResult_lockFlash (c : FeedCommand) (o : ResultCode) (b : List Byte) (s : State) : (placeResult c o b s).lockFlash = s.lockFlash := rfl
@[simp] theorem placeResult_bankA (c : FeedCommand) (o : ResultCode) (b : List Byte) (s : State) : (placeResult c o b s).bankA = s.bankA := rfl
@[simp] theorem placeResult_bankB (c : FeedCommand) (o : ResultCode) (b : List Byte) (s : State) : (placeResult c o b s).bankB = s.bankB := rfl
@[simp] theorem placeResult_holdQueue (c : FeedCommand) (o : ResultCode) (b : List Byte) (s : State) : (placeResult c o b s).holdQueue = s.holdQueue := rfl
@[simp] theorem placeResult_unstored (c : FeedCommand) (o : ResultCode) (b : List Byte) (s : State) : (placeResult c o b s).unstored = s.unstored := rfl
@[simp] theorem placeResult_flash (c : FeedCommand) (o : ResultCode) (b : List Byte) (s : State) : (placeResult c o b s).flash = s.flash := rfl
@[simp] theorem placeResult_dir (c : FeedCommand) (o : ResultCode) (b : List Byte) (s : State) : (placeResult c o b s).dir = s.dir := rfl
@[simp] theorem placeResult_trunk (c : FeedCommand) (o : ResultCode) (b : List Byte) (s : State) : (placeResult c o b s).trunk = s.trunk := rfl
@[simp] theorem placeResult_repair (c : FeedCommand) (o : ResultCode) (b : List Byte) (s : State) : (placeResult c o b s).repair = s.repair := rfl
@[simp] theorem placeResult_rails (c : FeedCommand) (o : ResultCode) (b : List Byte) (s : State) : (placeResult c o b s).rails = s.rails := rfl
@[simp] theorem placeResult_engines (c : FeedCommand) (o : ResultCode) (b : List Byte) (s : State) : (placeResult c o b s).engines = s.engines := rfl
@[simp] theorem placeResult_flip (c : FeedCommand) (o : ResultCode) (b : List Byte) (s : State) : (placeResult c o b s).flip = s.flip := rfl
@[simp] theorem placeResult_adopt (c : FeedCommand) (o : ResultCode) (b : List Byte) (s : State) : (placeResult c o b s).adopt = s.adopt := rfl
@[simp] theorem placeResult_counters (c : FeedCommand) (o : ResultCode) (b : List Byte) (s : State) : (placeResult c o b s).counters = s.counters := rfl
@[simp] theorem placeResult_alerts (c : FeedCommand) (o : ResultCode) (b : List Byte) (s : State) : (placeResult c o b s).alerts = s.alerts := rfl

/-! ### releaseGrant -/

@[simp] theorem releaseGrant_pending (s : State) : (releaseGrant s).pending = s.pending := rfl
@[simp] theorem releaseGrant_now (s : State) : (releaseGrant s).now = s.now := rfl
@[simp] theorem releaseGrant_draws (s : State) : (releaseGrant s).draws = s.draws := rfl
@[simp] theorem releaseGrant_power (s : State) : (releaseGrant s).power = s.power := rfl
@[simp] theorem releaseGrant_phase (s : State) : (releaseGrant s).phase = s.phase := rfl
@[simp] theorem releaseGrant_listenUntil (s : State) : (releaseGrant s).listenUntil = s.listenUntil := rfl
@[simp] theorem releaseGrant_straps (s : State) : (releaseGrant s).straps = s.straps := rfl
@[simp] theorem releaseGrant_mem (s : State) : (releaseGrant s).mem = s.mem := rfl
@[simp] theorem releaseGrant_dirFlash (s : State) : (releaseGrant s).dirFlash = s.dirFlash := rfl
@[simp] theorem releaseGrant_lockFlash (s : State) : (releaseGrant s).lockFlash = s.lockFlash := rfl
@[simp] theorem releaseGrant_bankA (s : State) : (releaseGrant s).bankA = s.bankA := rfl
@[simp] theorem releaseGrant_bankB (s : State) : (releaseGrant s).bankB = s.bankB := rfl
@[simp] theorem releaseGrant_holdQueue (s : State) : (releaseGrant s).holdQueue = s.holdQueue := rfl
@[simp] theorem releaseGrant_unstored (s : State) : (releaseGrant s).unstored = s.unstored := rfl
@[simp] theorem releaseGrant_flash (s : State) : (releaseGrant s).flash = s.flash := rfl
@[simp] theorem releaseGrant_dir (s : State) : (releaseGrant s).dir = s.dir := rfl
@[simp] theorem releaseGrant_repair (s : State) : (releaseGrant s).repair = s.repair := rfl
@[simp] theorem releaseGrant_rails (s : State) : (releaseGrant s).rails = s.rails := rfl
@[simp] theorem releaseGrant_engines (s : State) : (releaseGrant s).engines = s.engines := rfl
@[simp] theorem releaseGrant_flip (s : State) : (releaseGrant s).flip = s.flip := rfl
@[simp] theorem releaseGrant_adopt (s : State) : (releaseGrant s).adopt = s.adopt := rfl
@[simp] theorem releaseGrant_resetLow (s : State) : (releaseGrant s).resetLow = s.resetLow := rfl
@[simp] theorem releaseGrant_fselLow (s : State) : (releaseGrant s).fselLow = s.fselLow := rfl
@[simp] theorem releaseGrant_feed (s : State) : (releaseGrant s).feed = s.feed := rfl
@[simp] theorem releaseGrant_counters (s : State) : (releaseGrant s).counters = s.counters := rfl
@[simp] theorem releaseGrant_alerts (s : State) : (releaseGrant s).alerts = s.alerts := rfl

/-! ### endHold -/

@[simp] theorem endHold_pending (s : State) : (endHold s).pending = s.pending := rfl
@[simp] theorem endHold_now (s : State) : (endHold s).now = s.now := rfl
@[simp] theorem endHold_draws (s : State) : (endHold s).draws = s.draws := rfl
@[simp] theorem endHold_power (s : State) : (endHold s).power = s.power := rfl
@[simp] theorem endHold_phase (s : State) : (endHold s).phase = s.phase := rfl
@[simp] theorem endHold_listenUntil (s : State) : (endHold s).listenUntil = s.listenUntil := rfl
@[simp] theorem endHold_straps (s : State) : (endHold s).straps = s.straps := rfl
@[simp] theorem endHold_mem (s : State) : (endHold s).mem = s.mem := rfl
@[simp] theorem endHold_dirFlash (s : State) : (endHold s).dirFlash = s.dirFlash := rfl
@[simp] theorem endHold_lockFlash (s : State) : (endHold s).lockFlash = s.lockFlash := rfl
@[simp] theorem endHold_bankA (s : State) : (endHold s).bankA = s.bankA := rfl
@[simp] theorem endHold_bankB (s : State) : (endHold s).bankB = s.bankB := rfl
@[simp] theorem endHold_holdQueue (s : State) : (endHold s).holdQueue = s.holdQueue := rfl
@[simp] theorem endHold_unstored (s : State) : (endHold s).unstored = s.unstored := rfl
@[simp] theorem endHold_flash (s : State) : (endHold s).flash = s.flash := rfl
@[simp] theorem endHold_dir (s : State) : (endHold s).dir = s.dir := rfl
@[simp] theorem endHold_trunk (s : State) : (endHold s).trunk = s.trunk := rfl
@[simp] theorem endHold_repair (s : State) : (endHold s).repair = s.repair := rfl
@[simp] theorem endHold_rails (s : State) : (endHold s).rails = s.rails := rfl
@[simp] theorem endHold_engines (s : State) : (endHold s).engines = s.engines := rfl
@[simp] theorem endHold_adopt (s : State) : (endHold s).adopt = s.adopt := rfl
@[simp] theorem endHold_resetLow (s : State) : (endHold s).resetLow = s.resetLow := rfl
@[simp] theorem endHold_fselLow (s : State) : (endHold s).fselLow = s.fselLow := rfl
@[simp] theorem endHold_feed (s : State) : (endHold s).feed = s.feed := rfl
@[simp] theorem endHold_counters (s : State) : (endHold s).counters = s.counters := rfl
@[simp] theorem endHold_alerts (s : State) : (endHold s).alerts = s.alerts := rfl

/-! ### setHome -/

@[simp] theorem setHome_pending (k : Fin 4) (h : HomeSide) (s : State) : (setHome k h s).pending = s.pending := rfl
@[simp] theorem setHome_now (k : Fin 4) (h : HomeSide) (s : State) : (setHome k h s).now = s.now := rfl
@[simp] theorem setHome_draws (k : Fin 4) (h : HomeSide) (s : State) : (setHome k h s).draws = s.draws := rfl
@[simp] theorem setHome_power (k : Fin 4) (h : HomeSide) (s : State) : (setHome k h s).power = s.power := rfl
@[simp] theorem setHome_phase (k : Fin 4) (h : HomeSide) (s : State) : (setHome k h s).phase = s.phase := rfl
@[simp] theorem setHome_listenUntil (k : Fin 4) (h : HomeSide) (s : State) : (setHome k h s).listenUntil = s.listenUntil := rfl
@[simp] theorem setHome_straps (k : Fin 4) (h : HomeSide) (s : State) : (setHome k h s).straps = s.straps := rfl
@[simp] theorem setHome_mem (k : Fin 4) (h : HomeSide) (s : State) : (setHome k h s).mem = s.mem := rfl
@[simp] theorem setHome_dirFlash (k : Fin 4) (h : HomeSide) (s : State) : (setHome k h s).dirFlash = s.dirFlash := rfl
@[simp] theorem setHome_lockFlash (k : Fin 4) (h : HomeSide) (s : State) : (setHome k h s).lockFlash = s.lockFlash := rfl
@[simp] theorem setHome_bankA (k : Fin 4) (h : HomeSide) (s : State) : (setHome k h s).bankA = s.bankA := rfl
@[simp] theorem setHome_bankB (k : Fin 4) (h : HomeSide) (s : State) : (setHome k h s).bankB = s.bankB := rfl
@[simp] theorem setHome_holdQueue (k : Fin 4) (h : HomeSide) (s : State) : (setHome k h s).holdQueue = s.holdQueue := rfl
@[simp] theorem setHome_unstored (k : Fin 4) (h : HomeSide) (s : State) : (setHome k h s).unstored = s.unstored := rfl
@[simp] theorem setHome_flash (k : Fin 4) (h : HomeSide) (s : State) : (setHome k h s).flash = s.flash := rfl
@[simp] theorem setHome_dir (k : Fin 4) (h : HomeSide) (s : State) : (setHome k h s).dir = s.dir := rfl
@[simp] theorem setHome_trunk (k : Fin 4) (h : HomeSide) (s : State) : (setHome k h s).trunk = s.trunk := rfl
@[simp] theorem setHome_repair (k : Fin 4) (h : HomeSide) (s : State) : (setHome k h s).repair = s.repair := rfl
@[simp] theorem setHome_rails (k : Fin 4) (h : HomeSide) (s : State) : (setHome k h s).rails = s.rails := rfl
@[simp] theorem setHome_engines (k : Fin 4) (h : HomeSide) (s : State) : (setHome k h s).engines = s.engines := rfl
@[simp] theorem setHome_flip (k : Fin 4) (h : HomeSide) (s : State) : (setHome k h s).flip = s.flip := rfl
@[simp] theorem setHome_resetLow (k : Fin 4) (h : HomeSide) (s : State) : (setHome k h s).resetLow = s.resetLow := rfl
@[simp] theorem setHome_fselLow (k : Fin 4) (h : HomeSide) (s : State) : (setHome k h s).fselLow = s.fselLow := rfl
@[simp] theorem setHome_feed (k : Fin 4) (h : HomeSide) (s : State) : (setHome k h s).feed = s.feed := rfl
@[simp] theorem setHome_counters (k : Fin 4) (h : HomeSide) (s : State) : (setHome k h s).counters = s.counters := rfl
@[simp] theorem setHome_alerts (k : Fin 4) (h : HomeSide) (s : State) : (setHome k h s).alerts = s.alerts := rfl

/-! ### countCrcError -/

@[simp] theorem countCrcError_pending (s : State) : (countCrcError s).pending = s.pending := rfl
@[simp] theorem countCrcError_now (s : State) : (countCrcError s).now = s.now := rfl
@[simp] theorem countCrcError_draws (s : State) : (countCrcError s).draws = s.draws := rfl
@[simp] theorem countCrcError_power (s : State) : (countCrcError s).power = s.power := rfl
@[simp] theorem countCrcError_phase (s : State) : (countCrcError s).phase = s.phase := rfl
@[simp] theorem countCrcError_listenUntil (s : State) : (countCrcError s).listenUntil = s.listenUntil := rfl
@[simp] theorem countCrcError_straps (s : State) : (countCrcError s).straps = s.straps := rfl
@[simp] theorem countCrcError_mem (s : State) : (countCrcError s).mem = s.mem := rfl
@[simp] theorem countCrcError_dirFlash (s : State) : (countCrcError s).dirFlash = s.dirFlash := rfl
@[simp] theorem countCrcError_lockFlash (s : State) : (countCrcError s).lockFlash = s.lockFlash := rfl
@[simp] theorem countCrcError_bankA (s : State) : (countCrcError s).bankA = s.bankA := rfl
@[simp] theorem countCrcError_bankB (s : State) : (countCrcError s).bankB = s.bankB := rfl
@[simp] theorem countCrcError_holdQueue (s : State) : (countCrcError s).holdQueue = s.holdQueue := rfl
@[simp] theorem countCrcError_unstored (s : State) : (countCrcError s).unstored = s.unstored := rfl
@[simp] theorem countCrcError_flash (s : State) : (countCrcError s).flash = s.flash := rfl
@[simp] theorem countCrcError_dir (s : State) : (countCrcError s).dir = s.dir := rfl
@[simp] theorem countCrcError_trunk (s : State) : (countCrcError s).trunk = s.trunk := rfl
@[simp] theorem countCrcError_repair (s : State) : (countCrcError s).repair = s.repair := rfl
@[simp] theorem countCrcError_rails (s : State) : (countCrcError s).rails = s.rails := rfl
@[simp] theorem countCrcError_engines (s : State) : (countCrcError s).engines = s.engines := rfl
@[simp] theorem countCrcError_flip (s : State) : (countCrcError s).flip = s.flip := rfl
@[simp] theorem countCrcError_adopt (s : State) : (countCrcError s).adopt = s.adopt := rfl
@[simp] theorem countCrcError_resetLow (s : State) : (countCrcError s).resetLow = s.resetLow := rfl
@[simp] theorem countCrcError_fselLow (s : State) : (countCrcError s).fselLow = s.fselLow := rfl
@[simp] theorem countCrcError_feed (s : State) : (countCrcError s).feed = s.feed := rfl
@[simp] theorem countCrcError_alerts (s : State) : (countCrcError s).alerts = s.alerts := rfl

/-! ### startSilence -/

@[simp] theorem startSilence_pending (s : State) : (startSilence s).pending = s.pending := rfl
@[simp] theorem startSilence_now (s : State) : (startSilence s).now = s.now := rfl
@[simp] theorem startSilence_draws (s : State) : (startSilence s).draws = s.draws := rfl
@[simp] theorem startSilence_power (s : State) : (startSilence s).power = s.power := rfl
@[simp] theorem startSilence_phase (s : State) : (startSilence s).phase = s.phase := rfl
@[simp] theorem startSilence_listenUntil (s : State) : (startSilence s).listenUntil = s.listenUntil := rfl
@[simp] theorem startSilence_straps (s : State) : (startSilence s).straps = s.straps := rfl
@[simp] theorem startSilence_mem (s : State) : (startSilence s).mem = s.mem := rfl
@[simp] theorem startSilence_dirFlash (s : State) : (startSilence s).dirFlash = s.dirFlash := rfl
@[simp] theorem startSilence_lockFlash (s : State) : (startSilence s).lockFlash = s.lockFlash := rfl
@[simp] theorem startSilence_bankA (s : State) : (startSilence s).bankA = s.bankA := rfl
@[simp] theorem startSilence_bankB (s : State) : (startSilence s).bankB = s.bankB := rfl
@[simp] theorem startSilence_holdQueue (s : State) : (startSilence s).holdQueue = s.holdQueue := rfl
@[simp] theorem startSilence_unstored (s : State) : (startSilence s).unstored = s.unstored := rfl
@[simp] theorem startSilence_flash (s : State) : (startSilence s).flash = s.flash := rfl
@[simp] theorem startSilence_dir (s : State) : (startSilence s).dir = s.dir := rfl
@[simp] theorem startSilence_trunk (s : State) : (startSilence s).trunk = s.trunk := rfl
@[simp] theorem startSilence_repair (s : State) : (startSilence s).repair = s.repair := rfl
@[simp] theorem startSilence_rails (s : State) : (startSilence s).rails = s.rails := rfl
@[simp] theorem startSilence_engines (s : State) : (startSilence s).engines = s.engines := rfl
@[simp] theorem startSilence_flip (s : State) : (startSilence s).flip = s.flip := rfl
@[simp] theorem startSilence_resetLow (s : State) : (startSilence s).resetLow = s.resetLow := rfl
@[simp] theorem startSilence_fselLow (s : State) : (startSilence s).fselLow = s.fselLow := rfl
@[simp] theorem startSilence_feed (s : State) : (startSilence s).feed = s.feed := rfl
@[simp] theorem startSilence_counters (s : State) : (startSilence s).counters = s.counters := rfl
@[simp] theorem startSilence_alerts (s : State) : (startSilence s).alerts = s.alerts := rfl

/-! ### enterWatching -/

@[simp] theorem enterWatching_pending (s : State) : (enterWatching s).pending = s.pending := rfl
@[simp] theorem enterWatching_now (s : State) : (enterWatching s).now = s.now := rfl
@[simp] theorem enterWatching_draws (s : State) : (enterWatching s).draws = s.draws := rfl
@[simp] theorem enterWatching_power (s : State) : (enterWatching s).power = s.power := rfl
@[simp] theorem enterWatching_phase (s : State) : (enterWatching s).phase = s.phase := rfl
@[simp] theorem enterWatching_listenUntil (s : State) : (enterWatching s).listenUntil = s.listenUntil := rfl
@[simp] theorem enterWatching_straps (s : State) : (enterWatching s).straps = s.straps := rfl
@[simp] theorem enterWatching_mem (s : State) : (enterWatching s).mem = s.mem := rfl
@[simp] theorem enterWatching_dirFlash (s : State) : (enterWatching s).dirFlash = s.dirFlash := rfl
@[simp] theorem enterWatching_lockFlash (s : State) : (enterWatching s).lockFlash = s.lockFlash := rfl
@[simp] theorem enterWatching_bankA (s : State) : (enterWatching s).bankA = s.bankA := rfl
@[simp] theorem enterWatching_bankB (s : State) : (enterWatching s).bankB = s.bankB := rfl
@[simp] theorem enterWatching_holdQueue (s : State) : (enterWatching s).holdQueue = s.holdQueue := rfl
@[simp] theorem enterWatching_unstored (s : State) : (enterWatching s).unstored = s.unstored := rfl
@[simp] theorem enterWatching_flash (s : State) : (enterWatching s).flash = s.flash := rfl
@[simp] theorem enterWatching_dir (s : State) : (enterWatching s).dir = s.dir := rfl
@[simp] theorem enterWatching_trunk (s : State) : (enterWatching s).trunk = s.trunk := rfl
@[simp] theorem enterWatching_repair (s : State) : (enterWatching s).repair = s.repair := rfl
@[simp] theorem enterWatching_rails (s : State) : (enterWatching s).rails = s.rails := rfl
@[simp] theorem enterWatching_engines (s : State) : (enterWatching s).engines = s.engines := rfl
@[simp] theorem enterWatching_flip (s : State) : (enterWatching s).flip = s.flip := rfl
@[simp] theorem enterWatching_resetLow (s : State) : (enterWatching s).resetLow = s.resetLow := rfl
@[simp] theorem enterWatching_fselLow (s : State) : (enterWatching s).fselLow = s.fselLow := rfl
@[simp] theorem enterWatching_feed (s : State) : (enterWatching s).feed = s.feed := rfl
@[simp] theorem enterWatching_counters (s : State) : (enterWatching s).counters = s.counters := rfl
@[simp] theorem enterWatching_alerts (s : State) : (enterWatching s).alerts = s.alerts := rfl

/-! ### enterTaking -/

@[simp] theorem enterTaking_pending (s : State) : (enterTaking s).pending = s.pending := rfl
@[simp] theorem enterTaking_now (s : State) : (enterTaking s).now = s.now := rfl
@[simp] theorem enterTaking_draws (s : State) : (enterTaking s).draws = s.draws := rfl
@[simp] theorem enterTaking_power (s : State) : (enterTaking s).power = s.power := rfl
@[simp] theorem enterTaking_phase (s : State) : (enterTaking s).phase = s.phase := rfl
@[simp] theorem enterTaking_listenUntil (s : State) : (enterTaking s).listenUntil = s.listenUntil := rfl
@[simp] theorem enterTaking_straps (s : State) : (enterTaking s).straps = s.straps := rfl
@[simp] theorem enterTaking_mem (s : State) : (enterTaking s).mem = s.mem := rfl
@[simp] theorem enterTaking_dirFlash (s : State) : (enterTaking s).dirFlash = s.dirFlash := rfl
@[simp] theorem enterTaking_lockFlash (s : State) : (enterTaking s).lockFlash = s.lockFlash := rfl
@[simp] theorem enterTaking_bankA (s : State) : (enterTaking s).bankA = s.bankA := rfl
@[simp] theorem enterTaking_bankB (s : State) : (enterTaking s).bankB = s.bankB := rfl
@[simp] theorem enterTaking_holdQueue (s : State) : (enterTaking s).holdQueue = s.holdQueue := rfl
@[simp] theorem enterTaking_unstored (s : State) : (enterTaking s).unstored = s.unstored := rfl
@[simp] theorem enterTaking_flash (s : State) : (enterTaking s).flash = s.flash := rfl
@[simp] theorem enterTaking_dir (s : State) : (enterTaking s).dir = s.dir := rfl
@[simp] theorem enterTaking_trunk (s : State) : (enterTaking s).trunk = s.trunk := rfl
@[simp] theorem enterTaking_repair (s : State) : (enterTaking s).repair = s.repair := rfl
@[simp] theorem enterTaking_rails (s : State) : (enterTaking s).rails = s.rails := rfl
@[simp] theorem enterTaking_engines (s : State) : (enterTaking s).engines = s.engines := rfl
@[simp] theorem enterTaking_flip (s : State) : (enterTaking s).flip = s.flip := rfl
@[simp] theorem enterTaking_resetLow (s : State) : (enterTaking s).resetLow = s.resetLow := rfl
@[simp] theorem enterTaking_fselLow (s : State) : (enterTaking s).fselLow = s.fselLow := rfl
@[simp] theorem enterTaking_feed (s : State) : (enterTaking s).feed = s.feed := rfl
@[simp] theorem enterTaking_counters (s : State) : (enterTaking s).counters = s.counters := rfl
@[simp] theorem enterTaking_alerts (s : State) : (enterTaking s).alerts = s.alerts := rfl

/-! ### Own fields -/

@[simp] theorem State.at_now (s : State) (t : Micros) : (s.at t).now = max s.now t := rfl
@[simp] theorem State.drew_draws (s : State) : s.drew.draws = s.draws + 1 := rfl
@[simp] theorem State.bank_setBank_same (s : State) (i : BankId) (k : Bank) : (s.setBank i k).bank i = k := by
  cases i <;> rfl
@[simp] theorem State.bank_setBank_other (s : State) (i : BankId) (k : Bank) :
    (s.setBank i k).bank i.other = s.bank i.other := by
  cases i <;> rfl
@[simp] theorem State.slot_setSlot_same (s : State) (k : Fin 8) (w : Option WantSlot) :
    (s.setSlot k w).slot k = w := by
  simp [State.setSlot, State.slot]
theorem State.slot_setSlot_other (s : State) {k j : Fin 8} (w : Option WantSlot) (h : j ≠ k) :
    (s.setSlot k w).slot j = s.slot j := by
  have : k.val ≠ j.val := fun e => h (Fin.ext e.symm)
  simp [State.setSlot, State.slot, Vector.getElem_set, this]
@[simp] theorem State.rail_setRail_same (s : State) (r : Fin 8) (x : Rail) : (s.setRail r x).rail r = x := by
  simp [State.setRail, State.rail]
theorem State.rail_setRail_other (s : State) {r q : Fin 8} (x : Rail) (h : q ≠ r) :
    (s.setRail r x).rail q = s.rail q := by
  have : r.val ≠ q.val := fun e => h (Fin.ext e.symm)
  simp [State.setRail, State.rail, Vector.getElem_set, this]
@[simp] theorem State.engine_setEngine_same (s : State) (k : Fin 4) (e : Engine) :
    (s.setEngine k e).engine k = e := by
  simp [State.setEngine, State.engine]
/-- An engine that turns to what is no label session sends no label command. -/
@[simp] theorem State.engine_setActivity_same (s : State) (k : Fin 4) (a : Activity) :
    (s.setActivity k a).engine k = { s.engine k with activity := a, command := none } := by
  simp [State.setActivity]
/-- R96, R113: the session an engine opens carries the command composed at that moment. -/
theorem engine_openSession (r : Fin 8) (kind : SessionKind) (p : Fin 64) (record : Option (Batch × Nat)) (s : State) :
    (openSession r kind p record s).engine (engineOf r)
      = ⟨isCross r, .session r kind p record, sessionCommand r kind p record s⟩ := by
  simp [openSession]
theorem State.engine_setEngine_other (s : State) {k j : Fin 4} (e : Engine) (h : j ≠ k) :
    (s.setEngine k e).engine j = s.engine j := by
  have : k.val ≠ j.val := fun x => h (Fin.ext x.symm)
  simp [State.setEngine, State.engine, Vector.getElem_set, this]
@[simp] theorem State.engine_setActivity_activity (s : State) (k : Fin 4) (a : Activity) :
    ((s.setActivity k a).engine k).activity = a := by
  simp [State.setActivity]
theorem State.entry_setEntry_other (s : State) {i j : Nat} (e : Entry) (h : j ≠ i) :
    (s.setEntry i e).entry j = s.entry j := by
  have hp : ∀ m : Table Entry, Sparse.get Entry.vacant (Sparse.put Entry.vacant m i e) j = Sparse.get Entry.vacant m j := by
    intro m
    induction m with
    | nil => unfold Sparse.put; split <;> simp [Sparse.get, h]
    | cons c m ih =>
      obtain ⟨k, v⟩ := c
      unfold Sparse.put
      split
      · split <;> simp [Sparse.get, h]
      · split
        · rename_i h2; subst h2; split <;> simp [Sparse.get, h]
        · simp only [Sparse.get, ih]
  exact hp _

end Sys2Proof.Machine
end

