-- ==== Sys2Proof/Laws/Outer.lean ====
section
/-! SUPPORT. What no operation between the blocks touches: the queue of commands, the clock, the supply,
the phase, the straps, the flash arrays and the feed port. -/

set_option Elab.async false

namespace Sys2Proof.Machine

/-- The state that the operations between the blocks leave alone. -/
structure Outer where
  pending : List Instr
  now : Micros
  power : Power
  phase : Phase
  listenUntil : Option Micros
  straps : Straps
  mem : List Host.Cell
  dirFlash : Table PlaceContent
  lockFlash : Table LockContent
  resetLow : Bool
  fselLow : Bool
  feed : Feed

def State.outer (s : State) : Outer :=
  ⟨s.pending, s.now, s.power, s.phase, s.listenUntil, s.straps, s.mem, s.dirFlash, s.lockFlash, s.resetLow, s.fselLow,
    s.feed⟩

@[simp] theorem outer_mk (s : State) (draws : Nat) (bankA bankB : Bank) (holdQueue unstored : List Kept)
    (flash : FlashEngine) (dir : Directory) (trunk : Trunk) (repair : Repair) (rails : Vector Rail 8)
    (engines : Vector Engine 4) (flip : Flip) (adopt : Adopt) (counters : Counters) (alerts : Alerts) :
    State.outer ⟨s.pending, s.now, draws, s.power, s.phase, s.listenUntil, s.straps, s.mem, s.dirFlash,
      s.lockFlash, bankA, bankB, holdQueue, unstored, flash, dir, trunk, repair, rails, engines, flip,
      adopt, s.resetLow, s.fselLow, s.feed, counters, alerts⟩ = s.outer := rfl

theorem foldl_outer {α : Type} {f : State → α → State} (h : ∀ s a, (f s a).outer = s.outer) (l : List α)
    (s : State) : (l.foldl f s).outer = s.outer := by
  induction l generalizing s with
  | nil => rfl
  | cons a l ih => exact (ih _).trans (h s a)


/-! ### Ops.lean -/

@[simp] theorem State.drew_outer (s : State) : (State.drew s).outer = s.outer := by
  unfold State.drew; (try dsimp only); (repeat' split) <;> simp only [outer_mk]
@[simp] theorem State.setBank_outer (s : State) (i : BankId) (k : Bank) : (State.setBank s i k).outer = s.outer := by
  unfold State.setBank; (try dsimp only); (repeat' split) <;> simp only [outer_mk]
@[simp] theorem acceptRecord_outer (i : BankId) (b : Batch) (n : Nat) (s : State) : (acceptRecord i b n s).outer = s.outer := by
  unfold acceptRecord; (try dsimp only); (repeat' split) <;> simp only [outer_mk, State.setBank_outer]
@[simp] theorem acceptPlace_outer (slot : Nat) (rewrite : Bool) (s : State) : (acceptPlace slot rewrite s).outer = s.outer := by
  unfold acceptPlace; (try dsimp only); (repeat' split) <;> simp only [outer_mk]
@[simp] theorem flashAccept_outer (op : FlashOp) (s : State) : (flashAccept op s).outer = s.outer := by
  unfold flashAccept; (try dsimp only); (repeat' split) <;> simp only [outer_mk, acceptRecord_outer, State.setBank_outer, acceptPlace_outer]
@[simp] theorem flashPush_outer (op : FlashOp) (s : State) : (flashPush op s).outer = s.outer := by
  unfold flashPush; (try dsimp only); (repeat' split) <;> simp only [outer_mk, flashAccept_outer]
@[simp] theorem flashRequest_outer (op : FlashOp) (s : State) : (flashRequest op s).outer = s.outer := by
  unfold flashRequest; (try dsimp only); (repeat' split) <;> simp only [outer_mk, flashPush_outer]
@[simp] theorem flashRequests_outer (ops : List FlashOp) (s : State) : (flashRequests ops s).outer = s.outer := by
  induction ops generalizing s with
  | nil => rfl
  | cons op ops ih => simp [flashRequests, ih]
@[simp] theorem serveHead_outer (s : State) : (serveHead s).outer = s.outer := by
  unfold serveHead; (try dsimp only); (repeat' split) <;> simp only [outer_mk]
@[simp] theorem flashSettle_outer (s : State) : (flashSettle s).outer = s.outer := by
  unfold flashSettle; (try dsimp only); (repeat' split) <;> simp only [outer_mk, serveHead_outer]
@[simp] theorem enqueueFrame_outer (tag : Tag) (f : Frame) (s : State) : (enqueueFrame tag f s).outer = s.outer := by
  unfold enqueueFrame; (try dsimp only); (repeat' split) <;> simp only [outer_mk]
@[simp] theorem dropFrames_outer (p : QueuedFrame → Bool) (s : State) : (dropFrames p s).outer = s.outer := by
  unfold dropFrames; (try dsimp only); (repeat' split) <;> simp only [outer_mk]
@[simp] theorem retag_outer (p : QueuedFrame → Bool) (t : Tag) (s : State) : (retag p t s).outer = s.outer := by
  unfold retag; (try dsimp only); (repeat' split) <;> simp only [outer_mk]
@[simp] theorem dropWaiter_outer (p : Producer) (s : State) : (dropWaiter p s).outer = s.outer := by
  unfold dropWaiter; (try dsimp only); (repeat' split) <;> simp only [outer_mk]
@[simp] theorem contend_outer (s : State) : (contend s).outer = s.outer := by
  unfold contend; (try dsimp only); (repeat' split) <;> simp only [outer_mk, State.drew_outer]
@[simp] theorem State.setRail_outer (s : State) (r : Fin 8) (x : Rail) : (State.setRail s r x).outer = s.outer := by
  unfold State.setRail; (try dsimp only); (repeat' split) <;> simp only [outer_mk]
@[simp] theorem State.setEngine_outer (s : State) (k : Fin 4) (e : Engine) : (State.setEngine s k e).outer = s.outer := by
  unfold State.setEngine; (try dsimp only); (repeat' split) <;> simp only [outer_mk]
@[simp] theorem State.setActivity_outer (s : State) (k : Fin 4) (a : Activity) : (State.setActivity s k a).outer = s.outer := by
  unfold State.setActivity; (try dsimp only); (repeat' split) <;> simp only [outer_mk, State.setEngine_outer]
@[simp] theorem askJob_outer (r : Fin 8) (k : JobKind) (p : Fin 64) (due : Option Micros) (s : State) : (askJob r k p due s).outer = s.outer := by
  unfold askJob; (try dsimp only); (repeat' split) <;> simp only [outer_mk, State.setRail_outer]
@[simp] theorem withdrawJobs_outer (r : Fin 8) (p : Fin 64) (q : JobKind → Bool) (s : State) : (withdrawJobs r p q s).outer = s.outer := by
  unfold withdrawJobs; (try dsimp only); (repeat' split) <;> simp only [outer_mk, State.setRail_outer]
@[simp] theorem disablePort_outer (r : Fin 8) (s : State) : (disablePort r s).outer = s.outer := by
  unfold disablePort; (try dsimp only); (repeat' split) <;> simp only [outer_mk, State.setRail_outer, State.setActivity_outer]
@[simp] theorem enablePort_outer (r : Fin 8) (s : State) : (enablePort r s).outer = s.outer := by
  unfold enablePort; (try dsimp only); (repeat' split) <;> simp only [outer_mk, State.setRail_outer]

/-! ### Directory.lean -/

@[simp] theorem State.setEntry_outer (s : State) (i : Nat) (e : Entry) : (State.setEntry s i e).outer = s.outer := by
  unfold State.setEntry; (try dsimp only); (repeat' split) <;> simp only [outer_mk]
@[simp] theorem withdrawAt_outer (i : Nat) (q : JobKind → Bool) (s : State) : (withdrawAt i q s).outer = s.outer := by
  unfold withdrawAt; (try dsimp only); (repeat' split) <;> simp only [outer_mk, withdrawJobs_outer]
@[simp] theorem askAt_outer (i : Nat) (k : JobKind) (due : Option Micros) (s : State) : (askAt i k due s).outer = s.outer := by
  unfold askAt; (try dsimp only); (repeat' split) <;> simp only [outer_mk, askJob_outer]
@[simp] theorem entryJobs_outer (i : Nat) (before : EntryState) (s : State) : (entryJobs i before s).outer = s.outer := by
  unfold entryJobs; (try dsimp only); (repeat' split) <;> simp only [outer_mk, withdrawAt_outer, askAt_outer]
@[simp] theorem vacateEntry_outer (i : Nat) (s : State) : (vacateEntry i s).outer = s.outer := by
  unfold vacateEntry; (try dsimp only); (repeat' split) <;> simp only [outer_mk, withdrawAt_outer, State.setEntry_outer]
@[simp] theorem moveEntry_outer (i : Nat) (e : Entry) (s : State) : (moveEntry i e s).outer = s.outer := by
  unfold moveEntry; (try dsimp only); (repeat' split) <;> simp only [outer_mk, vacateEntry_outer, entryJobs_outer, State.setEntry_outer]
@[simp] theorem stageEntry_outer (b : Batch) (n : Nat) (f : Face) (i : Nat) (s : State) : (stageEntry b n f i s).outer = s.outer := by
  unfold stageEntry; (try dsimp only); (repeat' split) <;> simp only [outer_mk, moveEntry_outer]
@[simp] theorem stageWhere_outer (p : Nat → Bool) (b : Batch) (n : Nat) (r : Record) (s : State) : (stageWhere p b n r s).outer = s.outer := by
  unfold stageWhere; (try dsimp only); (repeat' split) <;> (try simp only [outer_mk, stageEntry_outer]) <;> (try rw [foldl_outer]) <;>
    (try rw [foldl_outer]) <;> (try intro s a) <;> (try dsimp only) <;> (repeat' split) <;> (try simp only [outer_mk, stageEntry_outer])
@[simp] theorem stageRecord_outer (b : Batch) (n : Nat) (r : Record) (s : State) : (stageRecord b n r s).outer = s.outer := by
  unfold stageRecord; (try dsimp only); (repeat' split) <;> simp only [outer_mk, stageWhere_outer]
@[simp] theorem dropFromDirectory_outer (b : Batch) (s : State) : (dropFromDirectory b s).outer = s.outer := by
  unfold dropFromDirectory; (try dsimp only); (repeat' split) <;> (try simp only [outer_mk, moveEntry_outer]) <;> (try rw [foldl_outer]) <;>
    (try rw [foldl_outer]) <;> (try intro s a) <;> (try dsimp only) <;> (repeat' split) <;> (try simp only [outer_mk, moveEntry_outer])
@[simp] theorem walkMarks_outer (w : Walk) (b : Batch) (ms : Table Mark) (s : State) :
    (walkMarks w b ms s).1.outer = s.outer := by
  induction ms generalizing s with
  | nil => rfl
  | cons c ms ih => 
    simp only [walkMarks]
    (repeat' split) <;> first | rfl | (simp [ih] <;> rfl)
@[simp] theorem walkBanks_outer (w : Walk) (bs : List Batch) (s : State) :
    (walkBanks w bs s).outer = s.outer := by
  induction bs generalizing w s with
  | nil => rfl
  | cons b bs ih =>
    have hm := fun w => walkMarks_outer w b (marksOf s b) s
    unfold walkBanks
    split
    · rename_i h; rw [← hm { w with batches := b :: bs }, h]
    · rename_i h; rw [ih, ← hm { w with batches := b :: bs }, h]
@[simp] theorem walkOn_outer (s : State) : (walkOn s).outer = s.outer := by
  unfold walkOn; (try dsimp only); (repeat' split) <;> simp only [outer_mk, walkBanks_outer]
@[simp] theorem walkSettle_outer (s : State) : (walkSettle s).outer = s.outer := by
  unfold walkSettle; (try dsimp only); (repeat' split) <;> (try simp only [outer_mk, State.setEntry_outer, walkOn_outer]) <;> (try rw [foldl_outer]) <;>
    (try rw [foldl_outer]) <;> (try intro s a) <;> (try dsimp only) <;> (repeat' split) <;> (try simp only [outer_mk, State.setEntry_outer, walkOn_outer])
@[simp] theorem walkReturned_outer (b : Batch) (n : Nat) (s : State) : (walkReturned b n s).outer = s.outer := by
  unfold walkReturned; (try dsimp only); (repeat' split) <;> simp only [outer_mk, walkOn_outer, stageWhere_outer]
@[simp] theorem pollAt_outer (i : Nat) (due : Micros) (s : State) : (pollAt i due s).outer = s.outer := by
  unfold pollAt; (try dsimp only); (repeat' split) <;> simp only [outer_mk, askAt_outer, State.setRail_outer]
@[simp] theorem reportJobs_outer (i : Nat) (keepRevisit : Bool) (s : State) : (reportJobs i keepRevisit s).outer = s.outer := by
  unfold reportJobs; (try dsimp only); (repeat' split) <;> simp only [outer_mk, withdrawAt_outer, pollAt_outer, askAt_outer]
@[simp] theorem evaluateReport_outer (i : Nat) (st : StatusAnswer) (serial : Option (BitVec 32)) (pageCounts : Bool) (keepRevisit : Bool) (s : State) : (evaluateReport i st serial pageCounts keepRevisit s).outer = s.outer := by
  unfold evaluateReport; (try dsimp only); (repeat' split) <;> simp only [outer_mk, reportJobs_outer, moveEntry_outer]
@[simp] theorem mismatchAt_outer (i : Nat) (s : State) : (mismatchAt i s).outer = s.outer := by
  unfold mismatchAt; (try dsimp only); (repeat' split) <;> simp only [outer_mk, State.setEntry_outer]
@[simp] theorem homeReport_outer (i : Nat) (st : StatusAnswer) (id : Option IdentAnswer) (keepRevisit : Bool) (s : State) : (homeReport i st id keepRevisit s).outer = s.outer := by
  unfold homeReport; (try dsimp only); (repeat' split) <;> simp only [outer_mk, mismatchAt_outer, State.setEntry_outer, evaluateReport_outer, askAt_outer]
@[simp] theorem crossReport_outer (i : Nat) (st : StatusAnswer) (id : Option IdentAnswer) (keepRevisit : Bool) (s : State) : (crossReport i st id keepRevisit s).outer = s.outer := by
  unfold crossReport; (try dsimp only); (repeat' split) <;> simp only [outer_mk, evaluateReport_outer, State.setEntry_outer, State.setRail_outer, withdrawAt_outer]
@[simp] theorem deliverReport_outer (i : Nat) (st : StatusAnswer) (id : Option IdentAnswer) (keepRevisit : Bool) (s : State) : (deliverReport i st id keepRevisit s).outer = s.outer := by
  unfold deliverReport; (try dsimp only); (repeat' split) <;> simp only [outer_mk, crossReport_outer, homeReport_outer]
@[simp] theorem giveUpEntry_outer (i : Nat) (target : EntryState) (s : State) : (giveUpEntry i target s).outer = s.outer := by
  unfold giveUpEntry; (try dsimp only); (repeat' split) <;> simp only [outer_mk, moveEntry_outer, withdrawAt_outer, askAt_outer]
@[simp] theorem faultEntry_outer (i : Nat) (s : State) : (faultEntry i s).outer = s.outer := by
  unfold faultEntry; (try dsimp only); (repeat' split) <;> simp only [outer_mk, giveUpEntry_outer]
@[simp] theorem completeSwap_outer (i : Nat) (swap : PendingRecord) (s : State) : (completeSwap i swap s).outer = s.outer := by
  unfold completeSwap; (try dsimp only); (repeat' split) <;> simp only [outer_mk, moveEntry_outer]
@[simp] theorem callRewrite_outer (s : State) : (callRewrite s).outer = s.outer := by
  unfold callRewrite; (try dsimp only); (repeat' split) <;> simp only [outer_mk]
@[simp] theorem placeWork_outer (i : Nat) (article : Option Nat) (s : State) : (placeWork i article s).outer = s.outer := by
  unfold placeWork; (try dsimp only); (repeat' split) <;> simp only [outer_mk, flashRequest_outer, callRewrite_outer]
@[simp] theorem directoryWork_outer (i : Nat) (article : Option Nat) (s : State) : (directoryWork i article s).outer = s.outer := by
  unfold directoryWork; (try dsimp only); (repeat' split) <;> simp only [outer_mk, callRewrite_outer, placeWork_outer]
@[simp] theorem lockWrite_outer (s : State) : (lockWrite s).outer = s.outer := by
  unfold lockWrite; (try dsimp only); (repeat' split) <;> simp only [outer_mk, flashRequest_outer]
@[simp] theorem directorySettle_outer (s : State) : (directorySettle s).outer = s.outer := by
  unfold directorySettle; (try dsimp only); (repeat' split) <;> simp only [outer_mk, callRewrite_outer, lockWrite_outer]
@[simp] theorem rewritePrograms_outer (s : State) : (rewritePrograms s).outer = s.outer := by
  unfold rewritePrograms; (try dsimp only); (repeat' split) <;> simp only [outer_mk, flashRequests_outer]
@[simp] theorem reassign_outer (i : Nat) (s : State) : (reassign i s).outer = s.outer := by
  unfold reassign; (try dsimp only); (repeat' split) <;> simp only [outer_mk, askAt_outer, State.setEntry_outer]
@[simp] theorem assignNew_outer (i : Nat) (a : Nat) (s : State) : (assignNew i a s).outer = s.outer := by
  unfold assignNew; (try dsimp only); (repeat' split) <;> simp only [outer_mk, withdrawAt_outer, State.setEntry_outer, directoryWork_outer, askAt_outer]
@[simp] theorem assignArticle_outer (i : Nat) (a : Nat) (s : State) : (assignArticle i a s).outer = s.outer := by
  unfold assignArticle; (try dsimp only); (repeat' split) <;> simp only [outer_mk, reassign_outer, assignNew_outer]
@[simp] theorem clearArticle_outer (i : Nat) (s : State) : (clearArticle i s).outer = s.outer := by
  unfold clearArticle; (try dsimp only); (repeat' split) <;> simp only [outer_mk, directoryWork_outer, State.setEntry_outer, vacateEntry_outer]
@[simp] theorem changeStored_outer (m : StoredMode) (s : State) : (changeStored m s).outer = s.outer := by
  unfold changeStored; (try dsimp only); (repeat' split) <;> simp only [outer_mk, lockWrite_outer]
@[simp] theorem applyLock_outer (m : LockMode) (s : State) : (applyLock m s).outer = s.outer := by
  unfold applyLock; (try dsimp only); (repeat' split) <;> simp only [outer_mk, changeStored_outer]

/-! ### Flags.lean -/


/-! ### Repair.lean -/

@[simp] theorem State.setSlot_outer (s : State) (k : Fin 8) (w : Option WantSlot) : (State.setSlot s k w).outer = s.outer := by
  unfold State.setSlot; (try dsimp only); (repeat' split) <;> simp only [outer_mk]
@[simp] theorem delaySlot_outer (k : Fin 8) (b : Batch) (ns : List Nat) (attempt : Nat) (s : State) : (delaySlot k b ns attempt s).outer = s.outer := by
  unfold delaySlot; (try dsimp only); (repeat' split) <;> simp only [outer_mk, State.drew_outer, State.setSlot_outer]
@[simp] theorem waitSlot_outer (k : Fin 8) (w : WantSlot) (s : State) : (waitSlot k w s).outer = s.outer := by
  unfold waitSlot; (try dsimp only); (repeat' split) <;> simp only [outer_mk, State.setSlot_outer]
@[simp] theorem rewriteWant_outer (k : Fin 8) (w : WantSlot) (s : State) : (rewriteWant k w s).outer = s.outer := by
  unfold rewriteWant; (try dsimp only); (repeat' split) <;> simp only [outer_mk]
@[simp] theorem withdrawWant_outer (k : Fin 8) (s : State) : (withdrawWant k s).outer = s.outer := by
  unfold withdrawWant; (try dsimp only); (repeat' split) <;> simp only [outer_mk, dropWaiter_outer, dropFrames_outer]
@[simp] theorem releaseSlot_outer (k : Fin 8) (s : State) : (releaseSlot k s).outer = s.outer := by
  unfold releaseSlot; (try dsimp only); (repeat' split) <;> simp only [outer_mk, withdrawWant_outer, State.setSlot_outer, retag_outer]
@[simp] theorem trimSlot_outer (k : Fin 8) (ns : List Nat) (s : State) : (trimSlot k ns s).outer = s.outer := by
  unfold trimSlot; (try dsimp only); (repeat' split) <;> simp only [outer_mk, State.setSlot_outer, releaseSlot_outer, rewriteWant_outer]
@[simp] theorem leaveSlots_outer (b : Batch) (n : Nat) (s : State) : (leaveSlots b n s).outer = s.outer := by
  unfold leaveSlots; (try dsimp only); (repeat' split) <;> (try simp only [outer_mk, trimSlot_outer]) <;> (try rw [foldl_outer]) <;>
    (try rw [foldl_outer]) <;> (try intro s a) <;> (try dsimp only) <;> (repeat' split) <;> (try simp only [outer_mk, trimSlot_outer])
@[simp] theorem headerRequest_outer (b : Batch) (s : State) : (headerRequest b s).outer = s.outer := by
  unfold headerRequest; (try dsimp only); (repeat' split) <;> simp only [outer_mk, delaySlot_outer]
@[simp] theorem gapTrigger_outer (b : Batch) (s : State) : (gapTrigger b s).outer = s.outer := by
  unfold gapTrigger; (try dsimp only); (repeat' split) <;> simp only [outer_mk, delaySlot_outer]
@[simp] theorem releaseSlotsOf_outer (b : Batch) (s : State) : (releaseSlotsOf b s).outer = s.outer := by
  unfold releaseSlotsOf; (try dsimp only); (repeat' split) <;> (try simp only [outer_mk, releaseSlot_outer]) <;> (try rw [foldl_outer]) <;>
    (try rw [foldl_outer]) <;> (try intro s a) <;> (try dsimp only) <;> (repeat' split) <;> (try simp only [outer_mk, releaseSlot_outer])
@[simp] theorem satisfyHeaders_outer (b : Batch) (s : State) : (satisfyHeaders b s).outer = s.outer := by
  unfold satisfyHeaders; (try dsimp only); (repeat' split) <;> (try simp only [outer_mk, releaseSlot_outer]) <;> (try rw [foldl_outer]) <;>
    (try rw [foldl_outer]) <;> (try intro s a) <;> (try dsimp only) <;> (repeat' split) <;> (try simp only [outer_mk, releaseSlot_outer])
@[simp] theorem dropHeaders_outer (s : State) : (dropHeaders s).outer = s.outer := by
  unfold dropHeaders; (try dsimp only); (repeat' split) <;> (try simp only [outer_mk, releaseSlot_outer]) <;> (try rw [foldl_outer]) <;>
    (try rw [foldl_outer]) <;> (try intro s a) <;> (try dsimp only) <;> (repeat' split) <;> (try simp only [outer_mk, releaseSlot_outer])
@[simp] theorem startTrailing_outer (s : State) : (startTrailing s).outer = s.outer := by
  unfold startTrailing; (try dsimp only); (repeat' split) <;> simp only [outer_mk]
@[simp] theorem trailingSettle_outer (s : State) : (trailingSettle s).outer = s.outer := by
  unfold trailingSettle; (try dsimp only); (repeat' split) <;> simp only [outer_mk]
@[simp] theorem hearWantAt_outer (b : Batch) (rs : List (BitVec 16 × BitVec 16)) (s : State) (k : Fin 8) : (hearWantAt b rs s k).outer = s.outer := by
  unfold hearWantAt; (try dsimp only); (repeat' split) <;> simp only [outer_mk, waitSlot_outer, withdrawWant_outer, trimSlot_outer]
@[simp] theorem hearWant_outer (b : Batch) (rs : List (BitVec 16 × BitVec 16)) (s : State) : (hearWant b rs s).outer = s.outer := by
  unfold hearWant; (try dsimp only); (repeat' split) <;> (try simp only [outer_mk, hearWantAt_outer]) <;> (try rw [foldl_outer]) <;>
    (try rw [foldl_outer]) <;> (try intro s a) <;> (try dsimp only) <;> (repeat' split) <;> (try simp only [outer_mk, hearWantAt_outer])
@[simp] theorem setAnswerList_outer (l : AnswerList) (s : State) : (setAnswerList l s).outer = s.outer := by
  unfold setAnswerList; (try dsimp only); (repeat' split) <;> simp only [outer_mk]
@[simp] theorem setAnswerRun_outer (r : AnswerRun) (s : State) : (setAnswerRun r s).outer = s.outer := by
  unfold setAnswerRun; (try dsimp only); (repeat' split) <;> simp only [outer_mk, dropWaiter_outer]
@[simp] theorem fillAnswers_outer (b : Batch) (rs : List (BitVec 16 × BitVec 16)) (s : State) : (fillAnswers b rs s).outer = s.outer := by
  unfold fillAnswers; (try dsimp only); (repeat' split) <;> simp only [outer_mk, setAnswerList_outer, State.drew_outer]
@[simp] theorem trimAnswer_outer (b : Batch) (n : Nat) (s : State) : (trimAnswer b n s).outer = s.outer := by
  unfold trimAnswer; (try dsimp only); (repeat' split) <;> simp only [outer_mk, setAnswerList_outer, setAnswerRun_outer]
@[simp] theorem trimAnswers_outer (b : Batch) (ns : List Nat) (s : State) : (trimAnswers b ns s).outer = s.outer := by
  unfold trimAnswers; (try dsimp only); (repeat' split) <;> (try simp only [outer_mk, trimAnswer_outer]) <;> (try rw [foldl_outer]) <;>
    (try rw [foldl_outer]) <;> (try intro s a) <;> (try dsimp only) <;> (repeat' split) <;> (try simp only [outer_mk, trimAnswer_outer])
@[simp] theorem clearHeaderAnswers_outer (b : Batch) (s : State) : (clearHeaderAnswers b s).outer = s.outer := by
  unfold clearHeaderAnswers; (try dsimp only); (repeat' split) <;> simp only [outer_mk, setAnswerList_outer, setAnswerRun_outer]
@[simp] theorem discardAnswers_outer (b : Batch) (s : State) : (discardAnswers b s).outer = s.outer := by
  unfold discardAnswers; (try dsimp only); (repeat' split) <;> simp only [outer_mk, dropWaiter_outer]
@[simp] theorem queueAnswer_outer (b : Batch) (rs : List Record) (s : State) : (queueAnswer b rs s).outer = s.outer := by
  unfold queueAnswer; (try dsimp only); (repeat' split) <;> simp only [outer_mk, enqueueFrame_outer]
@[simp] theorem answerFrame_outer (b : Batch) (s : State) : (answerFrame b s).outer = s.outer := by
  unfold answerFrame; (try dsimp only); (repeat' split) <;> simp only [outer_mk, enqueueFrame_outer, setAnswerRun_outer, queueAnswer_outer, flashRequests_outer]
@[simp] theorem pumpRun_outer (n : Nat) (b : Batch) (s : State) : (pumpRun n b s).outer = s.outer := by
  induction n generalizing s with
  | zero => rfl
  | succ n ih =>
    simp only [pumpRun]
    (repeat' split) <;> first | rfl | (simp [ih] <;> rfl)
@[simp] theorem sendRun_outer (b : Batch) (s : State) : (sendRun b s).outer = s.outer :=
  pumpRun_outer _ b s
@[simp] theorem answerReturned_outer (b : Batch) (n : Nat) (s : State) : (answerReturned b n s).outer = s.outer := by
  unfold answerReturned; (try dsimp only); (repeat' split) <;> simp only [outer_mk, sendRun_outer, queueAnswer_outer]
@[simp] theorem grantPlace_outer (p : Producer) (s : State) : (grantPlace p s).outer = s.outer := by
  unfold grantPlace; (try dsimp only); (repeat' split) <;> simp only [outer_mk, enqueueFrame_outer, sendRun_outer, answerFrame_outer]
@[simp] theorem offer_outer (p : Producer) (s : State) : (offer p s).outer = s.outer := by
  unfold offer; (try dsimp only); (repeat' split) <;> simp only [outer_mk, grantPlace_outer]
@[simp] theorem offerWant_outer (k : Fin 8) (w : WantSlot) (s : State) : (offerWant k w s).outer = s.outer := by
  unfold offerWant; (try dsimp only); (repeat' split) <;> simp only [outer_mk, waitSlot_outer, offer_outer, State.setSlot_outer]
@[simp] theorem waitExpired_outer (k : Fin 8) (w : WantSlot) (s : State) : (waitExpired k w s).outer = s.outer := by
  unfold waitExpired; (try dsimp only); (repeat' split) <;> simp only [outer_mk, State.setSlot_outer, delaySlot_outer]
@[simp] theorem answerExpired_outer (l : AnswerList) (s : State) : (answerExpired l s).outer = s.outer := by
  unfold answerExpired; (try dsimp only); (repeat' split) <;> simp only [outer_mk, sendRun_outer, setAnswerRun_outer]

/-! ### Log.lean -/

@[simp] theorem endHold_outer (s : State) : (endHold s).outer = s.outer := by
  unfold endHold; (try dsimp only); (repeat' split) <;> simp only [outer_mk]
@[simp] theorem endCall_outer (s : State) : (endCall s).outer = s.outer := by
  unfold endCall; (try dsimp only); (repeat' split) <;> simp only [outer_mk, dropWaiter_outer, retag_outer]
@[simp] theorem endEcho_outer (s : State) : (endEcho s).outer = s.outer := by
  unfold endEcho; (try dsimp only); (repeat' split) <;> simp only [outer_mk, dropWaiter_outer, retag_outer]
@[simp] theorem endOlderPeriods_outer (b : Batch) (s : State) : (endOlderPeriods b s).outer = s.outer := by
  unfold endOlderPeriods; (try dsimp only); (repeat' split) <;> simp only [outer_mk, endCall_outer, endEcho_outer]
@[simp] theorem programHeader_outer (i : BankId) (s : State) : (programHeader i s).outer = s.outer := by
  unfold programHeader; (try dsimp only); (repeat' split) <;> simp only [outer_mk, flashRequest_outer, State.setBank_outer]
@[simp] theorem programMark_outer (i : BankId) (retired : Bool) (s : State) : (programMark i retired s).outer = s.outer := by
  unfold programMark; (try dsimp only); (repeat' split) <;> simp only [outer_mk, flashRequest_outer]
@[simp] theorem retireBank_outer (i : BankId) (s : State) : (retireBank i s).outer = s.outer := by
  unfold retireBank; (try dsimp only); (repeat' split) <;> simp only [outer_mk, programMark_outer, State.setBank_outer]
@[simp] theorem dropNext_outer (b : Batch) (s : State) : (dropNext b s).outer = s.outer := by
  unfold dropNext; (try dsimp only); (repeat' split) <;> simp only [outer_mk, dropFromDirectory_outer, retireBank_outer, endHold_outer, discardAnswers_outer, releaseSlotsOf_outer, endCall_outer]
@[simp] theorem takeBank_outer (i : BankId) (b : Batch) (n : Nat) (s : State) : (takeBank i b n s).outer = s.outer := by
  unfold takeBank; (try dsimp only); (repeat' split) <;> simp only [outer_mk, State.setBank_outer, programHeader_outer]
@[simp] theorem mergeCount_outer (n : Nat) (s : State) : (mergeCount n s).outer = s.outer := by
  unfold mergeCount; (try dsimp only); (repeat' split) <;> simp only [outer_mk, State.setBank_outer, startTrailing_outer, flashRequest_outer]
@[simp] theorem openNew_outer (b : Batch) (n : Nat) (s : State) : (openNew b n s).outer = s.outer := by
  unfold openNew; (try dsimp only); (repeat' split) <;> simp only [outer_mk, dropNext_outer, startTrailing_outer, endOlderPeriods_outer, dropHeaders_outer, takeBank_outer]
@[simp] theorem logOpen_outer (b : Batch) (n : Nat) (s : State) : (logOpen b n s).outer = s.outer := by
  unfold logOpen; (try dsimp only); (repeat' split) <;> simp only [outer_mk, openNew_outer, mergeCount_outer]
@[simp] theorem logStop_outer (b : Batch) (s : State) : (logStop b s).outer = s.outer := by
  unfold logStop; (try dsimp only); (repeat' split) <;> simp only [outer_mk, dropNext_outer]
@[simp] theorem dropRecord_outer (s : State) : (dropRecord s).outer = s.outer := by
  unfold dropRecord; (try dsimp only); (repeat' split) <;> simp only [outer_mk]
@[simp] theorem recordTaken_outer (b : Batch) (n : Nat) (r : Record) (s : State) : (recordTaken b n r s).outer = s.outer := by
  unfold recordTaken; (try dsimp only); (repeat' split) <;> simp only [outer_mk, stageRecord_outer, leaveSlots_outer]
@[simp] theorem joinHoldQueue_outer (i : BankId) (b : Batch) (n : Nat) (r : Record) (s : State) : (joinHoldQueue i b n r s).outer = s.outer := by
  unfold joinHoldQueue; (try dsimp only); (repeat' split) <;> simp only [outer_mk, recordTaken_outer, State.setBank_outer, dropRecord_outer]
@[simp] theorem joinUnstored_outer (i : BankId) (b : Batch) (n : Nat) (r : Record) (s : State) : (joinUnstored i b n r s).outer = s.outer := by
  unfold joinUnstored; (try dsimp only); (repeat' split) <;> simp only [outer_mk, recordTaken_outer, State.setBank_outer, dropRecord_outer]
@[simp] theorem programRecord_outer (i : BankId) (b : Batch) (n : Nat) (r : Record) (s : State) : (programRecord i b n r s).outer = s.outer := by
  unfold programRecord; (try dsimp only); (repeat' split) <;> simp only [outer_mk, recordTaken_outer, flashRequest_outer, State.setBank_outer]
@[simp] theorem takeRecord_outer (i : BankId) (b : Batch) (n : Nat) (r : Record) (s : State) : (takeRecord i b n r s).outer = s.outer := by
  unfold takeRecord; (try dsimp only); (repeat' split) <;> simp only [outer_mk, joinHoldQueue_outer, joinUnstored_outer, programRecord_outer]
@[simp] theorem logRecord_outer (b : Batch) (n : Nat) (r : Record) (s : State) : (logRecord b n r s).outer = s.outer := by
  unfold logRecord; (try dsimp only); (repeat' split) <;> simp only [outer_mk, State.setBank_outer, headerRequest_outer, takeRecord_outer]
@[simp] theorem logRecords_outer (b : Batch) (rs : List Record) (s : State) : (logRecords b rs s).outer = s.outer := by
  induction rs generalizing s with
  | nil => rfl
  | cons r rs ih => simp [logRecords, ih]

/-! ### Flip.lean -/

@[simp] theorem beginHold_outer (s : State) : (beginHold s).outer = s.outer := by
  unfold beginHold; (try dsimp only); (repeat' split) <;> simp only [outer_mk]
@[simp] theorem honourCall_outer (s : State) : (honourCall s).outer = s.outer := by
  unfold honourCall; (try dsimp only); (repeat' split) <;> simp only [outer_mk, beginHold_outer]
@[simp] theorem restartQuiet_outer (s : State) : (restartQuiet s).outer = s.outer := by
  unfold restartQuiet; (try dsimp only); (repeat' split) <;> simp only [outer_mk, State.drew_outer]
@[simp] theorem hearFlip_outer (b : Batch) (s : State) : (hearFlip b s).outer = s.outer := by
  unfold hearFlip; (try dsimp only); (repeat' split) <;> simp only [outer_mk, honourCall_outer, restartQuiet_outer, headerRequest_outer]
@[simp] theorem flipAt_outer (b : Batch) (old : Option Batch) (i : Nat) (s : State) : (flipAt b old i s).outer = s.outer := by
  unfold flipAt; (try dsimp only); (repeat' split) <;> simp only [outer_mk, withdrawAt_outer, moveEntry_outer, askAt_outer]
@[simp] theorem flipEntries_outer (b : Batch) (old : Option Batch) (s : State) : (flipEntries b old s).outer = s.outer := by
  unfold flipEntries; (try dsimp only); (repeat' split) <;> (try simp only [outer_mk, flipAt_outer]) <;> (try rw [foldl_outer]) <;>
    (try rw [foldl_outer]) <;> (try intro s a) <;> (try dsimp only) <;> (repeat' split) <;> (try simp only [outer_mk, flipAt_outer])
@[simp] theorem flipBanks_outer (i : BankId) (s : State) : (flipBanks i s).outer = s.outer := by
  unfold flipBanks; (try dsimp only); (repeat' split) <;> simp only [outer_mk, programMark_outer, State.setBank_outer, retireBank_outer]
@[simp] theorem beginEcho_outer (b : Batch) (s : State) : (beginEcho b s).outer = s.outer := by
  unfold beginEcho; (try dsimp only); (repeat' split) <;> simp only [outer_mk, endEcho_outer, State.drew_outer]
@[simp] theorem forgetBatch_outer (old : Option Batch) (s : State) : (forgetBatch old s).outer = s.outer := by
  unfold forgetBatch; (try dsimp only); (repeat' split) <;> simp only [outer_mk, discardAnswers_outer, releaseSlotsOf_outer]
@[simp] theorem flipNow_outer (s : State) : (flipNow s).outer = s.outer := by
  unfold flipNow; (try dsimp only); (repeat' split) <;> simp only [outer_mk, endHold_outer, beginEcho_outer, forgetBatch_outer, flipEntries_outer, flipBanks_outer]
@[simp] theorem beginCall_outer (b : Batch) (s : State) : (beginCall b s).outer = s.outer := by
  unfold beginCall; (try dsimp only); (repeat' split) <;> simp only [outer_mk, endCall_outer, enqueueFrame_outer]
@[simp] theorem callTicked_outer (c : Call) (s : State) : (callTicked c s).outer = s.outer := by
  unfold callTicked; (try dsimp only); (repeat' split) <;> simp only [outer_mk, offer_outer]
@[simp] theorem quietExpired_outer (e : Echo) (s : State) : (quietExpired e s).outer = s.outer := by
  unfold quietExpired; (try dsimp only); (repeat' split) <;> simp only [outer_mk, restartQuiet_outer, offer_outer]

/-! ### Rails.lean -/

@[simp] theorem onRail_outer (r : Fin 8) (f : Rail → Rail) (s : State) : (onRail r f s).outer = s.outer := by
  unfold onRail; (try dsimp only); (repeat' split) <;> simp only [outer_mk, State.setRail_outer]
@[simp] theorem openSession_outer (r : Fin 8) (kind : SessionKind) (p : Fin 64) (record : Option (Batch × Nat)) (s : State) : (openSession r kind p record s).outer = s.outer := by
  unfold openSession; (try dsimp only); (repeat' split) <;> simp only [outer_mk, State.setEngine_outer]
@[simp] theorem openJob_outer (r : Fin 8) (kind : JobKind) (p : Fin 64) (record : Option (Batch × Nat)) (s : State) : (openJob r kind p record s).outer = s.outer := by
  unfold openJob; (try dsimp only); (repeat' split) <;> simp only [outer_mk, openSession_outer, onRail_outer]
@[simp] theorem removeJob_outer (r : Fin 8) (kind : JobKind) (p : Fin 64) (s : State) : (removeJob r kind p s).outer = s.outer := by
  unfold removeJob; (try dsimp only); (repeat' split) <;> simp only [outer_mk, withdrawJobs_outer]
@[simp] theorem openProving_outer (r : Fin 8) (s : State) : (openProving r s).outer = s.outer := by
  unfold openProving; (try dsimp only); (repeat' split) <;> simp only [outer_mk, openSession_outer, onRail_outer]
@[simp] theorem openPreload_outer (r : Fin 8) (p : Fin 64) (x : PendingRecord) (s : State) : (openPreload r p x s).outer = s.outer := by
  unfold openPreload; (try dsimp only); (repeat' split) <;> simp only [outer_mk, openJob_outer, moveEntry_outer]
@[simp] theorem selectPreload_outer (r : Fin 8) (p : Fin 64) (s : State) : (selectPreload r p s).1.outer = s.outer := by
  unfold selectPreload; (try dsimp only); (repeat' split) <;> simp only [outer_mk, removeJob_outer, flashRequest_outer, State.setActivity_outer, openPreload_outer]
@[simp] theorem takeUp_outer (r : Fin 8) (kind : SessionKind) (p : Fin 64) (s : State) : (takeUp r kind p s).1.outer = s.outer := by
  unfold takeUp; (try dsimp only); (repeat' split) <;> simp only [outer_mk, openSession_outer, onRail_outer, openProving_outer, selectPreload_outer, openJob_outer, removeJob_outer]
@[simp] theorem chooseNext_outer (k : Fin 4) (n : Nat) (s : State) : (chooseNext k n s).outer = s.outer := by
  induction n generalizing s with
  | zero => rfl
  | succ n ih =>
    unfold chooseNext
    split
    · split
      · rfl
      · rename_i r kind p _
        have ht := takeUp_outer r kind p s
        split
        · rename_i h; rw [← ht, h]
        · rename_i h; rw [ih, ← ht, h]
    · rfl
@[simp] theorem railsSettle_outer (s : State) : (railsSettle s).outer = s.outer := by
  unfold railsSettle; (try dsimp only); (repeat' split) <;> (try simp only [outer_mk, chooseNext_outer]) <;> (try rw [foldl_outer]) <;>
    (try rw [foldl_outer]) <;> (try intro s a) <;> (try dsimp only) <;> (repeat' split) <;> (try simp only [outer_mk, chooseNext_outer])
@[simp] theorem preloadReturned_outer (k : Fin 4) (b : Batch) (n : Nat) (s : State) : (preloadReturned k b n s).outer = s.outer := by
  unfold preloadReturned; (try dsimp only); (repeat' split) <;> simp only [outer_mk, State.setActivity_outer, openPreload_outer, removeJob_outer]
@[simp] theorem giveUpFamily_outer (f : Family) (i : Nat) (s : State) : (giveUpFamily f i s).outer = s.outer := by
  unfold giveUpFamily; (try dsimp only); (repeat' split) <;> simp only [outer_mk, giveUpEntry_outer, faultEntry_outer]
@[simp] theorem countFailure_outer (f : Family) (i : Nat) (s : State) : (countFailure f i s).outer = s.outer := by
  unfold countFailure; (try dsimp only); (repeat' split) <;> simp only [outer_mk, giveUpFamily_outer, State.setEntry_outer]
@[simp] theorem countOutcome_outer (r : Fin 8) (p : Fin 64) (o : OutcomeClass) (s : State) : (countOutcome r p o s).outer = s.outer := by
  unfold countOutcome; (try dsimp only); (repeat' split) <;> simp only [outer_mk, State.setEntry_outer, countFailure_outer, onRail_outer]
@[simp] theorem refuseJob_outer (r : Fin 8) (kind : JobKind) (p : Fin 64) (s : State) : (refuseJob r kind p s).outer = s.outer := by
  unfold refuseJob; (try dsimp only); (repeat' split) <;> simp only [outer_mk, onRail_outer]
@[simp] theorem retryJob_outer (r : Fin 8) (kind : JobKind) (p : Fin 64) (gaveUp : Bool) (s : State) : (retryJob r kind p gaveUp s).outer = s.outer := by
  unfold retryJob; (try dsimp only); (repeat' split) <;> simp only [outer_mk, onRail_outer]
@[simp] theorem failJob_outer (r : Fin 8) (kind : JobKind) (p : Fin 64) (o : OutcomeClass) (s : State) : (failJob r kind p o s).outer = s.outer := by
  unfold failJob; (try dsimp only); (repeat' split) <;> simp only [outer_mk, retryJob_outer, countOutcome_outer]
@[simp] theorem railDied_outer (r : Fin 8) (s : State) : (railDied r s).outer = s.outer := by
  unfold railDied; (try dsimp only); (repeat' split) <;> (try simp only [outer_mk, onRail_outer, giveUpEntry_outer]) <;> (try rw [foldl_outer]) <;>
    (try rw [foldl_outer]) <;> (try intro s a) <;> (try dsimp only) <;> (repeat' split) <;> (try simp only [outer_mk, onRail_outer, giveUpEntry_outer])
@[simp] theorem askCensus_outer (r : Fin 8) (s : State) : (askCensus r s).outer = s.outer := by
  unfold askCensus; (try dsimp only); (repeat' split) <;> (try simp only [outer_mk, askJob_outer, onRail_outer]) <;> (try rw [foldl_outer]) <;>
    (try rw [foldl_outer]) <;> (try intro s a) <;> (try dsimp only) <;> (repeat' split) <;> (try simp only [outer_mk, askJob_outer, onRail_outer])
@[simp] theorem proved_outer (r : Fin 8) (began result : RailState) (s : State) : (proved r began result s).outer = s.outer := by
  unfold proved; (try dsimp only); (repeat' split) <;> simp only [outer_mk, onRail_outer, railDied_outer, askCensus_outer]
@[simp] theorem provingStep_outer (r : Fin 8) (v : Proving) (o : OutcomeClass) (read : List Byte) (s : State) : (provingStep r v o read s).outer = s.outer := by
  unfold provingStep; (try dsimp only); (repeat' split) <;> simp only [outer_mk, onRail_outer, proved_outer]
@[simp] theorem changeJob_outer (r : Fin 8) (kind : JobKind) (p : Fin 64) (f : Job → Job) (s : State) : (changeJob r kind p f s).outer = s.outer := by
  unfold changeJob; (try dsimp only); (repeat' split) <;> simp only [outer_mk, onRail_outer]
@[simp] theorem statusEnded_outer (r : Fin 8) (kind : JobKind) (p : Fin 64) (j : Job) (a : StatusAnswer) (s : State) : (statusEnded r kind p j a s).outer = s.outer := by
  unfold statusEnded; (try dsimp only); (repeat' split) <;> simp only [outer_mk, changeJob_outer, removeJob_outer, deliverReport_outer]
@[simp] theorem identEnded_outer (r : Fin 8) (kind : JobKind) (p : Fin 64) (a : StatusAnswer) (id : IdentAnswer) (s : State) : (identEnded r kind p a id s).outer = s.outer := by
  unfold identEnded; (try dsimp only); (repeat' split) <;> simp only [outer_mk, deliverReport_outer, removeJob_outer]
@[simp] theorem identRefused_outer (r : Fin 8) (kind : JobKind) (p : Fin 64) (j : Job) (s : State) : (identRefused r kind p j s).outer = s.outer := by
  unfold identRefused; (try dsimp only); (repeat' split) <;> simp only [outer_mk, retryJob_outer, refuseJob_outer]
@[simp] theorem inquiryEnded_outer (kind : JobKind) (k : Fin 4) (e : SessionEnd) (a : Answer) (s : State) : (inquiryEnded kind k e a s).outer = s.outer := by
  unfold inquiryEnded; (try dsimp only); (repeat' split) <;> simp only [outer_mk, State.setActivity_outer, countOutcome_outer, statusEnded_outer, identEnded_outer, identRefused_outer, failJob_outer]
@[simp] theorem identityEnded_outer (r : Fin 8) (kind : JobKind) (p : Fin 64) (s : State) : (identityEnded r kind p s).outer = s.outer := by
  unfold identityEnded; (try dsimp only); (repeat' split) <;> simp only [outer_mk, removeJob_outer, deliverReport_outer]
@[simp] theorem pollUnrecorded_outer (i : Nat) (a : StatusAnswer) (s : State) : (pollUnrecorded i a s).outer = s.outer := by
  unfold pollUnrecorded; (try dsimp only); (repeat' split) <;> simp only [outer_mk, evaluateReport_outer, State.setEntry_outer]
@[simp] theorem pollAnswered_outer (i : Nat) (a : StatusAnswer) (s : State) : (pollAnswered i a s).outer = s.outer := by
  unfold pollAnswered; (try dsimp only); (repeat' split) <;> simp only [outer_mk, pollAt_outer, faultEntry_outer, pollUnrecorded_outer, completeSwap_outer, evaluateReport_outer, State.setEntry_outer]
@[simp] theorem pollFailed_outer (r : Fin 8) (p : Fin 64) (o : OutcomeClass) (s : State) : (pollFailed r p o s).outer = s.outer := by
  unfold pollFailed; (try dsimp only); (repeat' split) <;> simp only [outer_mk, faultEntry_outer, State.setEntry_outer, failJob_outer, countOutcome_outer]
@[simp] theorem pollEnded_outer (k : Fin 4) (e : SessionEnd) (a : Answer) (s : State) : (pollEnded k e a s).outer = s.outer := by
  unfold pollEnded; (try dsimp only); (repeat' split) <;> simp only [outer_mk, State.setActivity_outer, countOutcome_outer, changeJob_outer, pollAnswered_outer, pollFailed_outer]
@[simp] theorem swapDone_outer (r : Fin 8) (p : Fin 64) (s : State) : (swapDone r p s).outer = s.outer := by
  unfold swapDone; (try dsimp only); (repeat' split) <;> simp only [outer_mk, pollAt_outer, moveEntry_outer, removeJob_outer]
@[simp] theorem swapEnded_outer (k : Fin 4) (o : OutcomeClass) (s : State) : (swapEnded k o s).outer = s.outer := by
  unfold swapEnded; (try dsimp only); (repeat' split) <;> simp only [outer_mk, State.setActivity_outer, countOutcome_outer, swapDone_outer, refuseJob_outer, retryJob_outer, failJob_outer]
@[simp] theorem preloadSettled_outer (i : Nat) (o : OutcomeClass) (record : Option (Batch × Nat)) (s : State) : (preloadSettled i o record s).outer = s.outer := by
  unfold preloadSettled; (try dsimp only); (repeat' split) <;> simp only [outer_mk, moveEntry_outer]
@[simp] theorem askIfStaged_outer (r : Fin 8) (p : Fin 64) (s : State) : (askIfStaged r p s).outer = s.outer := by
  unfold askIfStaged; (try dsimp only); (repeat' split) <;> simp only [outer_mk, askJob_outer]
@[simp] theorem preloadEnded_outer (k : Fin 4) (o : OutcomeClass) (s : State) : (preloadEnded k o s).outer = s.outer := by
  unfold preloadEnded; (try dsimp only); (repeat' split) <;> simp only [outer_mk, State.setActivity_outer, preloadSettled_outer, countOutcome_outer, askIfStaged_outer, removeJob_outer, refuseJob_outer, retryJob_outer, failJob_outer]
@[simp] theorem assignEnded_outer (k : Fin 4) (o : OutcomeClass) (s : State) : (assignEnded k o s).outer = s.outer := by
  unfold assignEnded; (try dsimp only); (repeat' split) <;> simp only [outer_mk, State.setActivity_outer, countOutcome_outer, removeJob_outer, refuseJob_outer, retryJob_outer, failJob_outer]
@[simp] theorem retryLater_outer (r : Fin 8) (kind : JobKind) (p : Fin 64) (s : State) : (retryLater r kind p s).outer = s.outer := by
  unfold retryLater; (try dsimp only); (repeat' split) <;> simp only [outer_mk, changeJob_outer]
@[simp] theorem swapChecked_outer (r : Fin 8) (p : Fin 64) (a : StatusAnswer) (s : State) : (swapChecked r p a s).outer = s.outer := by
  unfold swapChecked; (try dsimp only); (repeat' split) <;> simp only [outer_mk, retryJob_outer, failJob_outer, completeSwap_outer, moveEntry_outer]
@[simp] theorem refusalAnswered_outer (r : Fin 8) (kind : JobKind) (p : Fin 64) (a : StatusAnswer) (s : State) : (refusalAnswered r kind p a s).outer = s.outer := by
  unfold refusalAnswered; (try dsimp only); (repeat' split) <;> simp only [outer_mk, retryLater_outer, swapChecked_outer, failJob_outer]
@[simp] theorem refusalEnded_outer (k : Fin 4) (o : OutcomeClass) (a : Answer) (s : State) : (refusalEnded k o a s).outer = s.outer := by
  unfold refusalEnded; (try dsimp only); (repeat' split) <;> simp only [outer_mk, State.setActivity_outer, countOutcome_outer, refusalAnswered_outer, failJob_outer]
@[simp] theorem provingEnded_outer (k : Fin 4) (o : OutcomeClass) (read : List Byte) (s : State) : (provingEnded k o read s).outer = s.outer := by
  unfold provingEnded; (try dsimp only); (repeat' split) <;> simp only [outer_mk, State.setActivity_outer, provingStep_outer]
@[simp] theorem inquiryStretched_outer (kind : JobKind) (r : Fin 8) (p : Fin 64) (s : State) : (inquiryStretched kind r p s).outer = s.outer := by
  unfold inquiryStretched; (try dsimp only); (repeat' split) <;> simp only [outer_mk, countOutcome_outer, failJob_outer]
@[simp] theorem stretched_outer (k : Fin 4) (s : State) : (stretched k s).outer = s.outer := by
  unfold stretched; (try dsimp only); (repeat' split) <;> simp only [outer_mk, refusalEnded_outer, provingEnded_outer, swapEnded_outer, preloadEnded_outer, assignEnded_outer, inquiryStretched_outer, State.setActivity_outer]
@[simp] theorem beginPulse_outer (k : Fin 4) (s : State) : (beginPulse k s).outer = s.outer := by
  unfold beginPulse; (try dsimp only); (repeat' split) <;> simp only [outer_mk, stretched_outer, State.setActivity_outer]
@[simp] theorem cutSession_outer (r : Fin 8) (s : State) : (cutSession r s).outer = s.outer := by
  unfold cutSession; (try dsimp only); (repeat' split) <;> simp only [outer_mk, State.setActivity_outer]
@[simp] theorem powerLost_outer (r : Fin 8) (s : State) : (powerLost r s).outer = s.outer := by
  unfold powerLost; (try dsimp only); (repeat' split) <;> (try simp only [outer_mk, onRail_outer, moveEntry_outer, cutSession_outer]) <;> (try rw [foldl_outer]) <;>
    (try rw [foldl_outer]) <;> (try intro s a) <;> (try dsimp only) <;> (repeat' split) <;> (try simp only [outer_mk, onRail_outer, moveEntry_outer, cutSession_outer])
@[simp] theorem powerReturned_outer (r : Fin 8) (s : State) : (powerReturned r s).outer = s.outer := by
  unfold powerReturned; (try dsimp only); (repeat' split) <;> simp only [outer_mk, onRail_outer]
@[simp] theorem censusClosed_outer (r : Fin 8) (s : State) : (censusClosed r s).outer = s.outer := by
  unfold censusClosed; (try dsimp only); (repeat' split) <;> (try simp only [outer_mk, State.setEntry_outer, onRail_outer]) <;> (try rw [foldl_outer]) <;>
    (try rw [foldl_outer]) <;> (try intro s a) <;> (try dsimp only) <;> (repeat' split) <;> (try simp only [outer_mk, State.setEntry_outer, onRail_outer])
@[simp] theorem censusSettle_outer (s : State) : (censusSettle s).outer = s.outer := by
  unfold censusSettle; (try dsimp only); (repeat' split) <;> (try simp only [outer_mk, censusClosed_outer]) <;> (try rw [foldl_outer]) <;>
    (try rw [foldl_outer]) <;> (try intro s a) <;> (try dsimp only) <;> (repeat' split) <;> (try simp only [outer_mk, censusClosed_outer])
@[simp] theorem jobDue_outer (r : Fin 8) (kind : JobKind) (p : Fin 64) (s : State) : (jobDue r kind p s).outer = s.outer := by
  unfold jobDue; (try dsimp only); (repeat' split) <;> simp only [outer_mk, changeJob_outer]
@[simp] theorem reproveDue_outer (r : Fin 8) (s : State) : (reproveDue r s).outer = s.outer := by
  unfold reproveDue; (try dsimp only); (repeat' split) <;> simp only [outer_mk, onRail_outer]

/-! ### Adoption.lean -/

@[simp] theorem startSilence_outer (s : State) : (startSilence s).outer = s.outer := by
  unfold startSilence; (try dsimp only); (repeat' split) <;> simp only [outer_mk]
@[simp] theorem enterWatching_outer (s : State) : (enterWatching s).outer = s.outer := by
  unfold enterWatching; (try dsimp only); (repeat' split) <;> simp only [outer_mk, startSilence_outer]
@[simp] theorem dropClaim_outer (s : State) : (dropClaim s).outer = s.outer := by
  unfold dropClaim; (try dsimp only); (repeat' split) <;> simp only [outer_mk, dropWaiter_outer, retag_outer]
@[simp] theorem beginClaim_outer (s : State) : (beginClaim s).outer = s.outer := by
  unfold beginClaim; (try dsimp only); (repeat' split) <;> simp only [outer_mk, offer_outer]
@[simp] theorem claimSent_outer (s : State) : (claimSent s).outer = s.outer := by
  unfold claimSent; (try dsimp only); (repeat' split) <;> simp only [outer_mk]
@[simp] theorem claimPorts_outer (asserted : Vector Bool 4) (s : State) : (claimPorts asserted s).outer = s.outer := by
  unfold claimPorts; (try dsimp only); (repeat' split) <;> (try simp only [outer_mk, enablePort_outer]) <;> (try rw [foldl_outer]) <;>
    (try rw [foldl_outer]) <;> (try intro s a) <;> (try dsimp only) <;> (repeat' split) <;> (try simp only [outer_mk, enablePort_outer])
@[simp] theorem guardExpired_outer (asserted : Vector Bool 4) (s : State) : (guardExpired asserted s).outer = s.outer := by
  unfold guardExpired; (try dsimp only); (repeat' split) <;> simp only [outer_mk, enterWatching_outer, offer_outer, claimPorts_outer]
@[simp] theorem releaseCross_outer (r : Fin 8) (s : State) : (releaseCross r s).outer = s.outer := by
  unfold releaseCross; (try dsimp only); (repeat' split) <;> simp only [outer_mk, disablePort_outer, onRail_outer]
@[simp] theorem yieldRail_outer (s : State) (r : Fin 8) : (yieldRail s r).outer = s.outer := by
  unfold yieldRail; (try dsimp only); (repeat' split) <;> simp only [outer_mk, onRail_outer, State.setActivity_outer]
@[simp] theorem recallSession_outer (h : HoldStart) (s : State) (r : Fin 8) : (recallSession h s r).outer = s.outer := by
  unfold recallSession; split <;> simp only [State.setEngine_outer]
@[simp] theorem recallSessions_outer (s : State) : (recallSessions s).outer = s.outer := by
  unfold recallSessions
  split
  · split
    · exact foldl_outer (recallSession_outer _) _ s
    · rfl
  · rfl
@[simp] theorem beginYield_outer (s : State) : (beginYield s).outer = s.outer := by
  unfold beginYield; (try dsimp only); (repeat' split) <;> (try simp only [outer_mk, yieldRail_outer, recallSessions_outer]) <;> (try rw [foldl_outer]) <;>
    (try rw [foldl_outer]) <;> (try intro s a) <;> (try dsimp only) <;> (repeat' split) <;> (try simp only [outer_mk, yieldRail_outer, recallSessions_outer])
@[simp] theorem partnerHeard_outer (src : Byte) (s : State) : (partnerHeard src s).outer = s.outer := by
  unfold partnerHeard; (try dsimp only); (repeat' split) <;> simp only [outer_mk, startSilence_outer, enterWatching_outer, dropClaim_outer, beginYield_outer]
@[simp] theorem finishYield_outer (s : State) : (finishYield s).outer = s.outer := by
  unfold finishYield; (try dsimp only); (repeat' split) <;> simp only [outer_mk, enterWatching_outer, offer_outer]
@[simp] theorem yieldSettle_outer (s : State) : (yieldSettle s).outer = s.outer := by
  unfold yieldSettle; (try dsimp only); (repeat' split) <;> (try simp only [outer_mk, releaseCross_outer, finishYield_outer]) <;> (try rw [foldl_outer]) <;>
    (try rw [foldl_outer]) <;> (try intro s a) <;> (try dsimp only) <;> (repeat' split) <;> (try simp only [outer_mk, releaseCross_outer, finishYield_outer])
@[simp] theorem preempted_outer (k : Fin 4) (s : State) : (preempted k s).outer = s.outer := by
  unfold preempted; (try dsimp only); (repeat' split) <;> simp only [outer_mk, releaseCross_outer, finishYield_outer]
@[simp] theorem enterTaking_outer (s : State) : (enterTaking s).outer = s.outer := by
  unfold enterTaking; (try dsimp only); (repeat' split) <;> simp only [outer_mk]
@[simp] theorem decideHome_outer (s : State) : (decideHome s).outer = s.outer := by
  unfold decideHome; (try dsimp only); (repeat' split) <;> simp only [outer_mk, enterTaking_outer]
@[simp] theorem noteTrigger_outer (src : Byte) (s : State) : (noteTrigger src s).outer = s.outer := by
  unfold noteTrigger; (try dsimp only); (repeat' split) <;> simp only [outer_mk]
@[simp] theorem yieldHeard_outer (src : Byte) (s : State) : (yieldHeard src s).outer = s.outer := by
  unfold yieldHeard; (try dsimp only); (repeat' split) <;> simp only [outer_mk, enterTaking_outer]
@[simp] theorem setHome_outer (k : Fin 4) (h : HomeSide) (s : State) : (setHome k h s).outer = s.outer := by
  unfold setHome; (try dsimp only); (repeat' split) <;> simp only [outer_mk]
@[simp] theorem homeTaken_outer (k : Fin 4) (s : State) : (homeTaken k s).outer = s.outer := by
  unfold homeTaken; (try dsimp only); (repeat' split) <;> simp only [outer_mk, enablePort_outer, setHome_outer]
@[simp] theorem readbackLost_outer (k : Fin 4) (s : State) : (readbackLost k s).outer = s.outer := by
  unfold readbackLost; (try dsimp only); (repeat' split) <;> simp only [outer_mk, setHome_outer, disablePort_outer]
@[simp] theorem readbackFound_outer (k : Fin 4) (s : State) : (readbackFound k s).outer = s.outer := by
  unfold readbackFound; (try dsimp only); (repeat' split) <;> simp only [outer_mk, setHome_outer]
@[simp] theorem startDigest_outer (s : State) : (startDigest s).outer = s.outer := by
  unfold startDigest; (try dsimp only); (repeat' split) <;> simp only [outer_mk, State.drew_outer]
@[simp] theorem digestSettle_outer (before s : State) : (digestSettle before s).outer = s.outer := by
  unfold digestSettle; (try dsimp only); (repeat' split) <;> simp only [outer_mk, startDigest_outer]
@[simp] theorem settle_outer (before s : State) : (settle before s).outer = s.outer := by
  unfold settle; (try dsimp only); (repeat' split) <;> simp only [outer_mk, digestSettle_outer, contend_outer, flashSettle_outer, railsSettle_outer, yieldSettle_outer, walkSettle_outer, censusSettle_outer, trailingSettle_outer]

/-! ### Trunk.lean -/

@[simp] theorem countCrcError_outer (s : State) : (countCrcError s).outer = s.outer := by
  unfold countCrcError; (try dsimp only); (repeat' split) <;> simp only [outer_mk]
@[simp] theorem setLine_outer (l : LineState) (s : State) : (setLine l s).outer = s.outer := by
  unfold setLine; (try dsimp only); (repeat' split) <;> simp only [outer_mk]
@[simp] theorem endIsolation_outer (s : State) : (endIsolation s).outer = s.outer := by
  unfold endIsolation; (try dsimp only); (repeat' split) <;> simp only [outer_mk]
@[simp] theorem noteDuplicate_outer (src : Byte) (s : State) : (noteDuplicate src s).outer = s.outer := by
  unfold noteDuplicate; (try dsimp only); (repeat' split) <;> simp only [outer_mk]
@[simp] theorem noteSource_outer (src : Byte) (s : State) : (noteSource src s).outer = s.outer := by
  unfold noteSource; (try dsimp only); (repeat' split) <;> simp only [outer_mk]
@[simp] theorem countFrame_outer (s : State) : (countFrame s).outer = s.outer := by
  unfold countFrame; (try dsimp only); (repeat' split) <;> simp only [outer_mk]
@[simp] theorem frameAccepted_outer (src : Byte) (s : State) : (frameAccepted src s).outer = s.outer := by
  unfold frameAccepted; (try dsimp only); (repeat' split) <;> simp only [outer_mk, partnerHeard_outer, endIsolation_outer, noteSource_outer, noteDuplicate_outer, countFrame_outer, setLine_outer]
@[simp] theorem repairOpen_outer (b : Batch) (s : State) : (repairOpen b s).outer = s.outer := by
  unfold repairOpen; (try dsimp only); (repeat' split) <;> simp only [outer_mk, clearHeaderAnswers_outer, satisfyHeaders_outer]
@[simp] theorem repairPrice_outer (b : Batch) (rs : List Record) (s : State) : (repairPrice b rs s).outer = s.outer := by
  unfold repairPrice; (try dsimp only); (repeat' split) <;> simp only [outer_mk, trimAnswers_outer, startTrailing_outer]
@[simp] theorem compareBank_outer (d : Digest) (role : Role) (s : State) : (compareBank d role s).outer = s.outer := by
  unfold compareBank; (try dsimp only); (repeat' split) <;> simp only [outer_mk, gapTrigger_outer, headerRequest_outer]
@[simp] theorem unknownNext_outer (d : Digest) (s : State) : (unknownNext d s).outer = s.outer := by
  unfold unknownNext; (try dsimp only); (repeat' split) <;> simp only [outer_mk, headerRequest_outer]
@[simp] theorem digestHolder_outer (src : Byte) (d : Digest) (s : State) : (digestHolder src d s).outer = s.outer := by
  unfold digestHolder; (try dsimp only); (repeat' split) <;> simp only [outer_mk, noteTrigger_outer]
@[simp] theorem takeDigest_outer (src : Byte) (d : Digest) (s : State) : (takeDigest src d s).outer = s.outer := by
  unfold takeDigest; (try dsimp only); (repeat' split) <;> simp only [outer_mk, digestHolder_outer, unknownNext_outer, compareBank_outer]
@[simp] theorem queueDigest_outer (s : State) : (queueDigest s).outer = s.outer := by
  unfold queueDigest; (try dsimp only); (repeat' split) <;> simp only [outer_mk, enqueueFrame_outer]
@[simp] theorem freezeCount_outer (s : State) : (freezeCount s).outer = s.outer := by
  unfold freezeCount; (try dsimp only); (repeat' split) <;> simp only [outer_mk]
@[simp] theorem wantSending_outer (tag : Tag) (s : State) : (wantSending tag s).outer = s.outer := by
  unfold wantSending; (try dsimp only); (repeat' split) <;> simp only [outer_mk, State.setSlot_outer]
@[simp] theorem beginTransmit_outer (h : QueuedFrame) (q : List QueuedFrame) (s : State) : (beginTransmit h q s).outer = s.outer := by
  unfold beginTransmit; (try dsimp only); (repeat' split) <;> simp only [outer_mk, wantSending_outer]
@[simp] theorem wantWaits_outer (k : Fin 8) (s : State) : (wantWaits k s).outer = s.outer := by
  unfold wantWaits; (try dsimp only); (repeat' split) <;> simp only [outer_mk, State.setSlot_outer, waitSlot_outer]
@[simp] theorem wantCollided_outer (k : Fin 8) (s : State) : (wantCollided k s).outer = s.outer := by
  unfold wantCollided; (try dsimp only); (repeat' split) <;> simp only [outer_mk, withdrawWant_outer, State.setSlot_outer, rewriteWant_outer]
@[simp] theorem abandonTransmit_outer (s : State) : (abandonTransmit s).outer = s.outer := by
  unfold abandonTransmit; (try dsimp only); (repeat' split) <;> simp only [outer_mk]
@[simp] theorem reportDrop_outer (tag : Tag) (s : State) : (reportDrop tag s).outer = s.outer := by
  unfold reportDrop; (try dsimp only); (repeat' split) <;> simp only [outer_mk, wantWaits_outer, offer_outer]
@[simp] theorem dropHead_outer (h : QueuedFrame) (q : List QueuedFrame) (s : State) : (dropHead h q s).outer = s.outer := by
  unfold dropHead; (try dsimp only); (repeat' split) <;> simp only [outer_mk, reportDrop_outer]
@[simp] theorem backOff_outer (h : QueuedFrame) (q : List QueuedFrame) (s : State) : (backOff h q s).outer = s.outer := by
  unfold backOff; (try dsimp only); (repeat' split) <;> simp only [outer_mk, wantCollided_outer]
@[simp] theorem collided_outer (h : QueuedFrame) (q : List QueuedFrame) (s : State) : (collided h q s).outer = s.outer := by
  unfold collided; (try dsimp only); (repeat' split) <;> simp only [outer_mk, abandonTransmit_outer, dropHead_outer, backOff_outer]
@[simp] theorem countWant_outer (s : State) : (countWant s).outer = s.outer := by
  unfold countWant; (try dsimp only); (repeat' split) <;> simp only [outer_mk]
@[simp] theorem countGive_outer (s : State) : (countGive s).outer = s.outer := by
  unfold countGive; (try dsimp only); (repeat' split) <;> simp only [outer_mk]
@[simp] theorem reportSent_outer (h : QueuedFrame) (s : State) : (reportSent h s).outer = s.outer := by
  rcases h with ⟨frame, tag, _, _, _⟩
  cases tag <;> cases frame <;> simp only [reportSent, countWant_outer, countGive_outer, wantWaits_outer, claimSent_outer]
@[simp] theorem ownFrame_outer (f : Frame) (s : State) : (ownFrame f s).outer = s.outer := by
  unfold ownFrame; (try dsimp only); (repeat' split) <;> simp only [outer_mk, repairOpen_outer, repairPrice_outer, hearFlip_outer]
@[simp] theorem transmitted_outer (h : QueuedFrame) (q : List QueuedFrame) (s : State) : (transmitted h q s).outer = s.outer := by
  unfold transmitted; (try dsimp only); (repeat' split) <;> simp only [outer_mk, ownFrame_outer, reportSent_outer]
@[simp] theorem grantNext_outer (s : State) : (grantNext s).outer = s.outer := by
  unfold grantNext; (try dsimp only); (repeat' split) <;> simp only [outer_mk, grantPlace_outer]
@[simp] theorem lineDriven_outer (s : State) : (lineDriven s).outer = s.outer := by
  unfold lineDriven; (try dsimp only); (repeat' split) <;> simp only [outer_mk, setLine_outer, freezeCount_outer]

/-! ### A sector erase (Log.lean) -/

@[simp] theorem headerErased_outer (i : BankId) (s : State) : (headerErased i s).outer = s.outer := by
  unfold headerErased; (try dsimp only); (repeat' split) <;> simp only [programHeader_outer, State.setBank_outer]
@[simp] theorem programHeld_outer (i : BankId) (n : Nat) (s : State) : (programHeld i n s).outer = s.outer := by
  unfold programHeld; (try dsimp only); (repeat' split) <;> simp only [outer_mk, flashRequests_outer]
/-- R38: of the outer state the completed erase of a bank sector changes only the bank flash. -/
theorem sectorErased_outer (i : BankId) (n : Nat) (s : State) :
    (sectorErased i n s).outer = { s.outer with mem := eraseSector s.mem i n } := by
  unfold sectorErased; (try dsimp only); split <;>
    cases i <;> simp only [programHeld_outer, headerErased_outer] <;> rfl

/-! ### FlashCommands.lean -/

@[simp] theorem flashGrant_outer (s : State) : (flashGrant s).outer = s.outer := by
  unfold flashGrant; (try dsimp only); (repeat' split) <;> simp only [outer_mk, flashPush_outer]
@[simp] theorem readReturned_outer (who : Reader) (b : Batch) (n : Nat) (s : State) : (readReturned who b n s).outer = s.outer := by
  unfold readReturned; (try dsimp only); (repeat' split) <;> simp only [outer_mk, answerReturned_outer, preloadReturned_outer, walkReturned_outer]

/-! ### FeedCommands.lean -/

@[simp] theorem feedSettle_outer (s : State) : (feedSettle s).outer = s.outer := by
  unfold feedSettle; (try dsimp only); (repeat' split) <;> simp only [outer_mk, offer_outer]
@[simp] theorem clearLatch_outer (s : State) : (clearLatch s).outer = s.outer := by
  unfold clearLatch; (try dsimp only); (repeat' split) <;> simp only [outer_mk]
@[simp] theorem releaseGrant_outer (s : State) : (releaseGrant s).outer = s.outer := by
  unfold releaseGrant; (try dsimp only); (repeat' split) <;> simp only [outer_mk]
@[simp] theorem sendGranted_outer (f : Frame) (s : State) : (sendGranted f s).outer = s.outer := by
  unfold sendGranted; (try dsimp only); (repeat' split) <;> simp only [outer_mk, enqueueFrame_outer, releaseGrant_outer]

end Sys2Proof.Machine
end

