-- ==== Sys2Proof/Laws/PerInstr.lean ====
section
/-! SUPPORT. Facts stated for every command one by one: the moment of a command and its well-formedness. -/

set_option Elab.async false

namespace Sys2Proof

/-- The command with the same operands at another moment. -/
def Instr.atMoment (t' : Micros) : Instr → Instr
  | .powerOn _ straps => .powerOn t' straps
  | .powerLoss _ => .powerLoss t'
  | .resetNFall _ => .resetNFall t'
  | .resetNRise _ straps => .resetNRise t' straps
  | .scanEnd _ => .scanEnd t'
  | .listenEnd _ => .listenEnd t'
  | .transactionEnd _ bits bytes => .transactionEnd t' bits bytes
  | .fetch _ length => .fetch t' length
  | .openBatch _ => .openBatch t'
  | .putRecords _ => .putRecords t'
  | .callFlip _ => .callFlip t'
  | .stopBatch _ => .stopBatch t'
  | .readStatus _ => .readStatus t'
  | .readEntry _ => .readEntry t'
  | .readCounters _ => .readCounters t'
  | .writeEnable _ => .writeEnable t'
  | .writeDisable _ => .writeDisable t'
  | .assignPosition _ lockN => .assignPosition t' lockN
  | .clearPosition _ lockN => .clearPosition t' lockN
  | .setLock _ lockN => .setLock t' lockN
  | .clearAlert _ => .clearAlert t'
  | .restart _ straps => .restart t' straps
  | .unknownCommand _ => .unknownCommand t'
  | .frameDiscarded _ invalid bytes => .frameDiscarded t' invalid bytes
  | .openFrame _ src batch count rep => .openFrame t' src batch count rep
  | .priceFrame _ src batch repair records => .priceFrame t' src batch repair records
  | .digestFrame _ src digest => .digestFrame t' src digest
  | .wantFrame _ src batch ranges => .wantFrame t' src batch ranges
  | .stopFrame _ src batch => .stopFrame t' src batch
  | .flipFrame _ src batch echo => .flipFrame t' src batch echo
  | .claimFrame _ src partner => .claimFrame t' src partner
  | .yieldFrame _ src partner => .yieldFrame t' src partner
  | .lineIdle _ => .lineIdle t'
  | .transmitStart _ => .transmitStart t'
  | .collision _ => .collision t'
  | .transmissionComplete _ => .transmissionComplete t'
  | .transmitPlaceGranted _ => .transmitPlaceGranted t'
  | .digestTimerExpiry _ => .digestTimerExpiry t'
  | .isolationTimerExpiry _ => .isolationTimerExpiry t'
  | .wantDelayExpiry _ slot => .wantDelayExpiry t' slot
  | .wantWaitExpiry _ slot => .wantWaitExpiry t' slot
  | .trailingGapTimerExpiry _ => .trailingGapTimerExpiry t'
  | .answerTimerExpiry _ batch => .answerTimerExpiry t' batch
  | .flashRequestDone _ => .flashRequestDone t'
  | .eraseSuspend _ => .eraseSuspend t'
  | .sectorEraseComplete _ => .sectorEraseComplete t'
  | .directoryEraseComplete _ => .directoryEraseComplete t'
  | .provingSessionEnd _ engine ending read => .provingSessionEnd t' engine ending read
  | .censusSessionEnd _ engine ending answer => .censusSessionEnd t' engine ending answer
  | .revisitSessionEnd _ engine ending answer => .revisitSessionEnd t' engine ending answer
  | .pollSessionEnd _ engine ending answer => .pollSessionEnd t' engine ending answer
  | .swapSessionEnd _ engine ending => .swapSessionEnd t' engine ending
  | .preloadSessionEnd _ engine ending => .preloadSessionEnd t' engine ending
  | .assignSessionEnd _ engine ending => .assignSessionEnd t' engine ending
  | .refusalCheckEnd _ engine ending answer => .refusalCheckEnd t' engine ending answer
  | .stretchTimeout _ engine => .stretchTimeout t' engine
  | .railResetPulseEnd _ engine => .railResetPulseEnd t' engine
  | .railPowerLost _ rail => .railPowerLost t' rail
  | .railPowerReturn _ rail => .railPowerReturn t' rail
  | .deadRailReprove _ rail => .deadRailReprove t' rail
  | .pollDue _ rail pos => .pollDue t' rail pos
  | .revisitDue _ rail pos => .revisitDue t' rail pos
  | .identityDue _ rail kind pos => .identityDue t' rail kind pos
  | .identityDueTimeout _ rail kind pos => .identityDueTimeout t' rail kind pos
  | .refusedJobRetry _ rail kind pos => .refusedJobRetry t' rail kind pos
  | .holdTimerExpiry _ => .holdTimerExpiry t'
  | .gapTimerExpiry _ => .gapTimerExpiry t'
  | .callTimerExpiry _ => .callTimerExpiry t'
  | .callPeriodExpiry _ => .callPeriodExpiry t'
  | .quietTimerExpiry _ => .quietTimerExpiry t'
  | .echoPeriodExpiry _ => .echoPeriodExpiry t'
  | .partnerSilenceTimerExpiry _ => .partnerSilenceTimerExpiry t'
  | .claimGuardExpiry _ asserted => .claimGuardExpiry t' asserted
  | .holdLineAsserted _ port => .holdLineAsserted t' port
  | .waitReleaseTimeout _ => .waitReleaseTimeout t'
  | .holderSilence _ => .holderSilence t'
  | .takingComplete _ port => .takingComplete t' port
  | .holdLineReadbackReleased _ port => .holdLineReadbackReleased t' port
  | .lineBusy _ => .lineBusy t'
  | .fselNFall _ => .fselNFall t'
  | .holdLineReadbackAsserted _ port => .holdLineReadbackAsserted t' port

namespace Laws.Moment

/-- A command moved to another moment happens then, is as well formed as before, and needs the same
ports and blocks; moved back it is the command it was. -/
def Statement (i : Instr) : Prop :=
  ∀ t' : Micros, (i.atMoment t').moment = t' ∧ (i.atMoment t').wf = i.wf
    ∧ (i.atMoment t').storesBank = i.storesBank ∧ (i.atMoment t').startsUp = i.startsUp
    ∧ (i.atMoment t').atMoment i.moment = i

theorem powerOn (t : Micros) (straps : Straps) : Statement (.powerOn t straps) :=
  fun _ => ⟨rfl, rfl, rfl, rfl, rfl⟩

theorem powerLoss (t : Micros) : Statement (.powerLoss t) :=
  fun _ => ⟨rfl, rfl, rfl, rfl, rfl⟩

theorem resetNFall (t : Micros) : Statement (.resetNFall t) :=
  fun _ => ⟨rfl, rfl, rfl, rfl, rfl⟩

theorem resetNRise (t : Micros) (straps : Straps) : Statement (.resetNRise t straps) :=
  fun _ => ⟨rfl, rfl, rfl, rfl, rfl⟩

theorem scanEnd (t : Micros) : Statement (.scanEnd t) :=
  fun _ => ⟨rfl, rfl, rfl, rfl, rfl⟩

theorem listenEnd (t : Micros) : Statement (.listenEnd t) :=
  fun _ => ⟨rfl, rfl, rfl, rfl, rfl⟩

theorem transactionEnd (t : Micros) (bits : Nat) (bytes : List Byte) :
    Statement (.transactionEnd t bits bytes) :=
  fun _ => ⟨rfl, rfl, rfl, rfl, rfl⟩

theorem fetch (t : Micros) (length : Byte) : Statement (.fetch t length) :=
  fun _ => ⟨rfl, rfl, rfl, rfl, rfl⟩

theorem openBatch (t : Micros) : Statement (.openBatch t) :=
  fun _ => ⟨rfl, rfl, rfl, rfl, rfl⟩

theorem putRecords (t : Micros) : Statement (.putRecords t) :=
  fun _ => ⟨rfl, rfl, rfl, rfl, rfl⟩

theorem callFlip (t : Micros) : Statement (.callFlip t) :=
  fun _ => ⟨rfl, rfl, rfl, rfl, rfl⟩

theorem stopBatch (t : Micros) : Statement (.stopBatch t) :=
  fun _ => ⟨rfl, rfl, rfl, rfl, rfl⟩

theorem readStatus (t : Micros) : Statement (.readStatus t) :=
  fun _ => ⟨rfl, rfl, rfl, rfl, rfl⟩

theorem readEntry (t : Micros) : Statement (.readEntry t) :=
  fun _ => ⟨rfl, rfl, rfl, rfl, rfl⟩

theorem readCounters (t : Micros) : Statement (.readCounters t) :=
  fun _ => ⟨rfl, rfl, rfl, rfl, rfl⟩

theorem writeEnable (t : Micros) : Statement (.writeEnable t) :=
  fun _ => ⟨rfl, rfl, rfl, rfl, rfl⟩

theorem writeDisable (t : Micros) : Statement (.writeDisable t) :=
  fun _ => ⟨rfl, rfl, rfl, rfl, rfl⟩

theorem assignPosition (t : Micros) (lockN : Bool) : Statement (.assignPosition t lockN) :=
  fun _ => ⟨rfl, rfl, rfl, rfl, rfl⟩

theorem clearPosition (t : Micros) (lockN : Bool) : Statement (.clearPosition t lockN) :=
  fun _ => ⟨rfl, rfl, rfl, rfl, rfl⟩

theorem setLock (t : Micros) (lockN : Bool) : Statement (.setLock t lockN) :=
  fun _ => ⟨rfl, rfl, rfl, rfl, rfl⟩

theorem clearAlert (t : Micros) : Statement (.clearAlert t) :=
  fun _ => ⟨rfl, rfl, rfl, rfl, rfl⟩

theorem restart (t : Micros) (straps : Straps) : Statement (.restart t straps) :=
  fun _ => ⟨rfl, rfl, rfl, rfl, rfl⟩

theorem unknownCommand (t : Micros) : Statement (.unknownCommand t) :=
  fun _ => ⟨rfl, rfl, rfl, rfl, rfl⟩

theorem frameDiscarded (t : Micros) (invalid : Bool) (bytes : List Byte) :
    Statement (.frameDiscarded t invalid bytes) :=
  fun _ => ⟨rfl, rfl, rfl, rfl, rfl⟩

theorem openFrame (t : Micros) (src : Byte) (batch : Batch) (count : BitVec 16) (rep : Bool) :
    Statement (.openFrame t src batch count rep) :=
  fun _ => ⟨rfl, rfl, rfl, rfl, rfl⟩

theorem priceFrame (t : Micros) (src : Byte) (batch : Batch) (repair : Bool) (records : List Record) :
    Statement (.priceFrame t src batch repair records) :=
  fun _ => ⟨rfl, rfl, rfl, rfl, rfl⟩

theorem digestFrame (t : Micros) (src : Byte) (digest : Digest) :
    Statement (.digestFrame t src digest) :=
  fun _ => ⟨rfl, rfl, rfl, rfl, rfl⟩

theorem wantFrame (t : Micros) (src : Byte) (batch : Batch) (ranges : List (BitVec 16 × BitVec 16)) :
    Statement (.wantFrame t src batch ranges) :=
  fun _ => ⟨rfl, rfl, rfl, rfl, rfl⟩

theorem stopFrame (t : Micros) (src : Byte) (batch : Batch) : Statement (.stopFrame t src batch) :=
  fun _ => ⟨rfl, rfl, rfl, rfl, rfl⟩

theorem flipFrame (t : Micros) (src : Byte) (batch : Batch) (echo : Bool) :
    Statement (.flipFrame t src batch echo) :=
  fun _ => ⟨rfl, rfl, rfl, rfl, rfl⟩

theorem claimFrame (t : Micros) (src : Byte) (partner : Byte) : Statement (.claimFrame t src partner) :=
  fun _ => ⟨rfl, rfl, rfl, rfl, rfl⟩

theorem yieldFrame (t : Micros) (src : Byte) (partner : Byte) : Statement (.yieldFrame t src partner) :=
  fun _ => ⟨rfl, rfl, rfl, rfl, rfl⟩

theorem lineIdle (t : Micros) : Statement (.lineIdle t) :=
  fun _ => ⟨rfl, rfl, rfl, rfl, rfl⟩

theorem transmitStart (t : Micros) : Statement (.transmitStart t) :=
  fun _ => ⟨rfl, rfl, rfl, rfl, rfl⟩

theorem collision (t : Micros) : Statement (.collision t) :=
  fun _ => ⟨rfl, rfl, rfl, rfl, rfl⟩

theorem transmissionComplete (t : Micros) : Statement (.transmissionComplete t) :=
  fun _ => ⟨rfl, rfl, rfl, rfl, rfl⟩

theorem transmitPlaceGranted (t : Micros) : Statement (.transmitPlaceGranted t) :=
  fun _ => ⟨rfl, rfl, rfl, rfl, rfl⟩

theorem digestTimerExpiry (t : Micros) : Statement (.digestTimerExpiry t) :=
  fun _ => ⟨rfl, rfl, rfl, rfl, rfl⟩

theorem isolationTimerExpiry (t : Micros) : Statement (.isolationTimerExpiry t) :=
  fun _ => ⟨rfl, rfl, rfl, rfl, rfl⟩

theorem wantDelayExpiry (t : Micros) (slot : Fin 8) : Statement (.wantDelayExpiry t slot) :=
  fun _ => ⟨rfl, rfl, rfl, rfl, rfl⟩

theorem wantWaitExpiry (t : Micros) (slot : Fin 8) : Statement (.wantWaitExpiry t slot) :=
  fun _ => ⟨rfl, rfl, rfl, rfl, rfl⟩

theorem trailingGapTimerExpiry (t : Micros) : Statement (.trailingGapTimerExpiry t) :=
  fun _ => ⟨rfl, rfl, rfl, rfl, rfl⟩

theorem answerTimerExpiry (t : Micros) (batch : Batch) : Statement (.answerTimerExpiry t batch) :=
  fun _ => ⟨rfl, rfl, rfl, rfl, rfl⟩

theorem flashRequestDone (t : Micros) : Statement (.flashRequestDone t) :=
  fun _ => ⟨rfl, rfl, rfl, rfl, rfl⟩

theorem eraseSuspend (t : Micros) : Statement (.eraseSuspend t) :=
  fun _ => ⟨rfl, rfl, rfl, rfl, rfl⟩

theorem sectorEraseComplete (t : Micros) : Statement (.sectorEraseComplete t) :=
  fun _ => ⟨rfl, rfl, rfl, rfl, rfl⟩

theorem directoryEraseComplete (t : Micros) : Statement (.directoryEraseComplete t) :=
  fun _ => ⟨rfl, rfl, rfl, rfl, rfl⟩

theorem provingSessionEnd (t : Micros) (engine : Fin 4) (ending : SessionEnd) (read : List Byte) :
    Statement (.provingSessionEnd t engine ending read) :=
  fun _ => ⟨rfl, rfl, rfl, rfl, rfl⟩

theorem censusSessionEnd (t : Micros) (engine : Fin 4) (ending : SessionEnd) (answer : Answer) :
    Statement (.censusSessionEnd t engine ending answer) :=
  fun _ => ⟨rfl, rfl, rfl, rfl, rfl⟩

theorem revisitSessionEnd (t : Micros) (engine : Fin 4) (ending : SessionEnd) (answer : Answer) :
    Statement (.revisitSessionEnd t engine ending answer) :=
  fun _ => ⟨rfl, rfl, rfl, rfl, rfl⟩

theorem pollSessionEnd (t : Micros) (engine : Fin 4) (ending : SessionEnd) (answer : Answer) :
    Statement (.pollSessionEnd t engine ending answer) :=
  fun _ => ⟨rfl, rfl, rfl, rfl, rfl⟩

theorem swapSessionEnd (t : Micros) (engine : Fin 4) (ending : SessionEnd) :
    Statement (.swapSessionEnd t engine ending) :=
  fun _ => ⟨rfl, rfl, rfl, rfl, rfl⟩

theorem preloadSessionEnd (t : Micros) (engine : Fin 4) (ending : SessionEnd) :
    Statement (.preloadSessionEnd t engine ending) :=
  fun _ => ⟨rfl, rfl, rfl, rfl, rfl⟩

theorem assignSessionEnd (t : Micros) (engine : Fin 4) (ending : SessionEnd) :
    Statement (.assignSessionEnd t engine ending) :=
  fun _ => ⟨rfl, rfl, rfl, rfl, rfl⟩

theorem refusalCheckEnd (t : Micros) (engine : Fin 4) (ending : SessionEnd) (answer : Answer) :
    Statement (.refusalCheckEnd t engine ending answer) :=
  fun _ => ⟨rfl, rfl, rfl, rfl, rfl⟩

theorem stretchTimeout (t : Micros) (engine : Fin 4) : Statement (.stretchTimeout t engine) :=
  fun _ => ⟨rfl, rfl, rfl, rfl, rfl⟩

theorem railResetPulseEnd (t : Micros) (engine : Fin 4) : Statement (.railResetPulseEnd t engine) :=
  fun _ => ⟨rfl, rfl, rfl, rfl, rfl⟩

theorem railPowerLost (t : Micros) (rail : Fin 8) : Statement (.railPowerLost t rail) :=
  fun _ => ⟨rfl, rfl, rfl, rfl, rfl⟩

theorem railPowerReturn (t : Micros) (rail : Fin 8) : Statement (.railPowerReturn t rail) :=
  fun _ => ⟨rfl, rfl, rfl, rfl, rfl⟩

theorem deadRailReprove (t : Micros) (rail : Fin 8) : Statement (.deadRailReprove t rail) :=
  fun _ => ⟨rfl, rfl, rfl, rfl, rfl⟩

theorem pollDue (t : Micros) (rail : Fin 8) (pos : Fin 64) : Statement (.pollDue t rail pos) :=
  fun _ => ⟨rfl, rfl, rfl, rfl, rfl⟩

theorem revisitDue (t : Micros) (rail : Fin 8) (pos : Fin 64) : Statement (.revisitDue t rail pos) :=
  fun _ => ⟨rfl, rfl, rfl, rfl, rfl⟩

theorem identityDue (t : Micros) (rail : Fin 8) (kind : JobKind) (pos : Fin 64) :
    Statement (.identityDue t rail kind pos) :=
  fun _ => ⟨rfl, rfl, rfl, rfl, rfl⟩

theorem identityDueTimeout (t : Micros) (rail : Fin 8) (kind : JobKind) (pos : Fin 64) :
    Statement (.identityDueTimeout t rail kind pos) :=
  fun _ => ⟨rfl, rfl, rfl, rfl, rfl⟩

theorem refusedJobRetry (t : Micros) (rail : Fin 8) (kind : JobKind) (pos : Fin 64) :
    Statement (.refusedJobRetry t rail kind pos) :=
  fun _ => ⟨rfl, rfl, rfl, rfl, rfl⟩

theorem holdTimerExpiry (t : Micros) : Statement (.holdTimerExpiry t) :=
  fun _ => ⟨rfl, rfl, rfl, rfl, rfl⟩

theorem gapTimerExpiry (t : Micros) : Statement (.gapTimerExpiry t) :=
  fun _ => ⟨rfl, rfl, rfl, rfl, rfl⟩

theorem callTimerExpiry (t : Micros) : Statement (.callTimerExpiry t) :=
  fun _ => ⟨rfl, rfl, rfl, rfl, rfl⟩

theorem callPeriodExpiry (t : Micros) : Statement (.callPeriodExpiry t) :=
  fun _ => ⟨rfl, rfl, rfl, rfl, rfl⟩

theorem quietTimerExpiry (t : Micros) : Statement (.quietTimerExpiry t) :=
  fun _ => ⟨rfl, rfl, rfl, rfl, rfl⟩

theorem echoPeriodExpiry (t : Micros) : Statement (.echoPeriodExpiry t) :=
  fun _ => ⟨rfl, rfl, rfl, rfl, rfl⟩

theorem partnerSilenceTimerExpiry (t : Micros) : Statement (.partnerSilenceTimerExpiry t) :=
  fun _ => ⟨rfl, rfl, rfl, rfl, rfl⟩

theorem claimGuardExpiry (t : Micros) (asserted : Vector Bool 4) :
    Statement (.claimGuardExpiry t asserted) :=
  fun _ => ⟨rfl, rfl, rfl, rfl, rfl⟩

theorem holdLineAsserted (t : Micros) (port : Fin 4) : Statement (.holdLineAsserted t port) :=
  fun _ => ⟨rfl, rfl, rfl, rfl, rfl⟩

theorem waitReleaseTimeout (t : Micros) : Statement (.waitReleaseTimeout t) :=
  fun _ => ⟨rfl, rfl, rfl, rfl, rfl⟩

theorem holderSilence (t : Micros) : Statement (.holderSilence t) :=
  fun _ => ⟨rfl, rfl, rfl, rfl, rfl⟩

theorem takingComplete (t : Micros) (port : Fin 4) : Statement (.takingComplete t port) :=
  fun _ => ⟨rfl, rfl, rfl, rfl, rfl⟩

theorem holdLineReadbackReleased (t : Micros) (port : Fin 4) :
    Statement (.holdLineReadbackReleased t port) :=
  fun _ => ⟨rfl, rfl, rfl, rfl, rfl⟩

theorem lineBusy (t : Micros) : Statement (.lineBusy t) :=
  fun _ => ⟨rfl, rfl, rfl, rfl, rfl⟩

theorem fselNFall (t : Micros) : Statement (.fselNFall t) :=
  fun _ => ⟨rfl, rfl, rfl, rfl, rfl⟩

theorem holdLineReadbackAsserted (t : Micros) (port : Fin 4) :
    Statement (.holdLineReadbackAsserted t port) :=
  fun _ => ⟨rfl, rfl, rfl, rfl, rfl⟩

end Laws.Moment

end Sys2Proof
end

