-- ==== Sys2Proof/Laws/Sparse.lean ====
section
/-! SUPPORT. Sparse tables: reading after writing, and that every operation on the bank flash keeps
the canonical form; and that the receipt maps keep theirs. -/

set_option Elab.async false

namespace Sys2Proof.Machine

variable {α : Type} [DecidableEq α]

theorem Sparse.wfFrom_mono {d : α} {m : Table α} {lo hi : Nat} (h : lo ≤ hi)
    (hm : Sparse.wfFrom d hi m = true) : Sparse.wfFrom d lo m = true := by
  cases m with
  | nil => rfl
  | cons c m =>
    simp only [Sparse.wfFrom, Bool.and_eq_true, decide_eq_true_eq] at hm ⊢
    exact ⟨⟨by omega, hm.1.2⟩, hm.2⟩

/-- A number below the listed ones reads as an unlisted one. -/
theorem Sparse.get_below {d : α} {m : Table α} {lo i : Nat} (hm : Sparse.wfFrom d lo m = true)
    (hi : i < lo) : Sparse.get d m i = d := by
  induction m generalizing lo with
  | nil => rfl
  | cons c m ih =>
    simp only [Sparse.wfFrom, Bool.and_eq_true, decide_eq_true_eq] at hm
    have hne : i ≠ c.1 := by omega
    simp only [Sparse.get, hne, if_false]
    exact ih hm.2 (by omega)

/-- Writing keeps the canonical form. -/
theorem Sparse.wfFrom_put {d : α} {m : Table α} {lo i : Nat} (x : α)
    (hm : Sparse.wfFrom d lo m = true) (hi : lo ≤ i) :
    Sparse.wfFrom d lo (Sparse.put d m i x) = true := by
  induction m generalizing lo with
  | nil =>
    unfold Sparse.put
    split
    · rfl
    · simp_all [Sparse.wfFrom]
  | cons c m ih =>
    obtain ⟨k, v⟩ := c
    simp only [Sparse.wfFrom, Bool.and_eq_true, decide_eq_true_eq] at hm
    obtain ⟨⟨hlo, hv⟩, hm⟩ := hm
    unfold Sparse.put
    split
    · split
      · simp_all [Sparse.wfFrom]
      · rename_i h1 h2
        simp_all [Sparse.wfFrom]
    · split
      · rename_i h1 h2
        subst h2
        split
        · exact Sparse.wfFrom_mono (by omega) hm
        · simp_all [Sparse.wfFrom]
      · rename_i h1 h2
        simp only [Sparse.wfFrom, Bool.and_eq_true, decide_eq_true_eq]
        exact ⟨⟨hlo, hv⟩, ih hm (by omega)⟩

theorem Sparse.wf_put {d : α} {m : Table α} (i : Nat) (x : α) (hm : Sparse.wf d m = true) :
    Sparse.wf d (Sparse.put d m i x) = true :=
  Sparse.wfFrom_put x hm (Nat.zero_le i)

/-- A number just written reads as what was written. -/
theorem Sparse.get_put_same {d : α} {m : Table α} {i : Nat} (x : α) {lo : Nat}
    (hm : Sparse.wfFrom d lo m = true) : Sparse.get d (Sparse.put d m i x) i = x := by
  induction m generalizing lo with
  | nil =>
    unfold Sparse.put
    split
    · simp_all [Sparse.get]
    · simp [Sparse.get]
  | cons c m ih =>
    obtain ⟨k, v⟩ := c
    simp only [Sparse.wfFrom, Bool.and_eq_true, decide_eq_true_eq] at hm
    obtain ⟨⟨hlo, hv⟩, hm⟩ := hm
    unfold Sparse.put
    split
    · rename_i h1
      split
      · rename_i h2
        have : i ≠ k := by omega
        simp [Sparse.get, this, Sparse.get_below hm (show i < k + 1 by omega), h2]
      · simp [Sparse.get]
    · split
      · rename_i h1 h2
        subst h2
        split
        · rename_i h3
          simp [Sparse.get_below hm (show i < i + 1 by omega), h3]
        · simp [Sparse.get]
      · rename_i h1 h2
        simp [Sparse.get, h2, ih hm]

/-- Other numbers read as before. -/
theorem Sparse.get_put_other {d : α} {m : Table α} {i j : Nat} (x : α) (h : j ≠ i) :
    Sparse.get d (Sparse.put d m i x) j = Sparse.get d m j := by
  induction m with
  | nil =>
    unfold Sparse.put
    split
    · rfl
    · simp [Sparse.get, h]
  | cons c m ih =>
    obtain ⟨k, v⟩ := c
    unfold Sparse.put
    split
    · split
      · rfl
      · simp [Sparse.get, h]
    · split
      · rename_i h1 h2
        subst h2
        split
        · simp [Sparse.get, h]
        · simp [Sparse.get, h]
      · simp only [Sparse.get, ih]

theorem Sparse.wfFrom_filter {d : α} {m : Table α} {lo : Nat} (p : Nat × α → Bool)
    (hm : Sparse.wfFrom d lo m = true) : Sparse.wfFrom d lo (m.filter p) = true := by
  induction m generalizing lo with
  | nil => rfl
  | cons c m ih =>
    simp only [Sparse.wfFrom, Bool.and_eq_true, decide_eq_true_eq] at hm
    simp only [List.filter]
    split
    · simp only [Sparse.wfFrom, Bool.and_eq_true, decide_eq_true_eq]
      exact ⟨hm.1, ih hm.2⟩
    · exact Sparse.wfFrom_mono (by omega) (ih hm.2)

theorem Sparse.wf_dropWhere {d : α} {m : Table α} (p : Nat → Bool) (hm : Sparse.wf d m = true) :
    Sparse.wf d (Sparse.dropWhere p m) = true :=
  Sparse.wfFrom_filter _ hm

omit [DecidableEq α] in
/-- What is dropped reads as unlisted. -/
theorem Sparse.get_dropWhere_in {d : α} {m : Table α} {p : Nat → Bool} {i : Nat} (h : p i = true) :
    Sparse.get d (Sparse.dropWhere p m) i = d := by
  induction m with
  | nil => rfl
  | cons c m ih =>
    simp only [Sparse.dropWhere, List.filter]
    split
    · rename_i h1
      have : i ≠ c.1 := by rintro rfl; simp [h] at h1
      simp only [Sparse.get, this, if_false]
      exact ih
    · exact ih

omit [DecidableEq α] in
/-- What is not dropped reads as before. -/
theorem Sparse.get_dropWhere_out {d : α} {m : Table α} {p : Nat → Bool} {i : Nat} (h : p i = false) :
    Sparse.get d (Sparse.dropWhere p m) i = Sparse.get d m i := by
  induction m with
  | nil => rfl
  | cons c m ih =>
    simp only [Sparse.dropWhere, List.filter]
    split
    · simp only [Sparse.get]
      split
      · rfl
      · exact ih
    · rename_i h1
      have : i ≠ c.1 := by rintro rfl; simp [h] at h1
      simp only [Sparse.get, this, if_false]
      exact ih

/-! ### The bank flash -/

theorem programByte_wf {m : List Host.Cell} (a : Nat) (b : Byte) (h : Memory.wf m) :
    Memory.wf (programByte m a b) :=
  Sparse.wf_put a _ h

theorem programBytes_wf {m : List Host.Cell} (a : Nat) (bs : List Byte) (h : Memory.wf m) :
    Memory.wf (programBytes m a bs) := by
  induction bs generalizing m a with
  | nil => exact h
  | cons b bs ih => exact ih _ (programByte_wf a b h)

theorem eraseSector_wf {m : List Host.Cell} (i : BankId) (n : Nat) (h : Memory.wf m) :
    Memory.wf (eraseSector m i n) :=
  Sparse.wf_dropWhere _ h

theorem cutProgram_wf {m : List Host.Cell} (a : Nat) (bs : List Byte) (d : Nat) (h : Memory.wf m) :
    Memory.wf (cutProgram m a bs d) := by
  induction bs generalizing m a d with
  | nil => exact h
  | cons b bs ih => exact ih _ _ (programByte_wf a _ h)

theorem cutErase_wfFrom {m : List Host.Cell} {lo : Nat} (i : BankId) (n d : Nat)
    (h : Sparse.wfFrom 0xFF#8 lo m = true) : Sparse.wfFrom 0xFF#8 lo (cutErase i n d m) = true := by
  induction m generalizing lo with
  | nil => rfl
  | cons c m ih =>
    simp only [Sparse.wfFrom, Bool.and_eq_true, decide_eq_true_eq] at h
    simp only [cutErase, List.filterMap_cons] at ih ⊢
    split
    · exact Sparse.wfFrom_mono (by omega) (ih h.2)
    · rename_i x hx
      split at hx
      · split at hx
        · cases hx
        · cases hx
          simp only [Sparse.wfFrom, Bool.and_eq_true, decide_eq_true_eq]
          exact ⟨⟨h.1.1, by assumption⟩, ih h.2⟩
      · cases hx
        simp only [Sparse.wfFrom, Bool.and_eq_true, decide_eq_true_eq]
        exact ⟨h.1, ih h.2⟩

theorem cutErase_wf {m : List Host.Cell} (i : BankId) (n d : Nat) (h : Memory.wf m) :
    Memory.wf (cutErase i n d m) :=
  cutErase_wfFrom i n d h

/-- The bytes a program writes: each old byte and the new one, and no other byte changes. -/
theorem flashByte_programByte {m : List Host.Cell} (a : Nat) (b : Byte) (h : Memory.wf m) (x : Nat) :
    flashByte (programByte m a b) x = if x = a then flashByte m a &&& b else flashByte m x := by
  unfold programByte flashByte
  split
  · rename_i hx; subst hx; exact Sparse.get_put_same _ h
  · rename_i hx; exact Sparse.get_put_other _ hx

/-- An erase leaves 0xFF in its sector and every other byte. -/
theorem flashByte_eraseSector (m : List Host.Cell) (i : BankId) (n x : Nat) :
    flashByte (eraseSector m i n) x = if inSector i n x then 0xFF#8 else flashByte m x := by
  unfold eraseSector flashByte
  split
  · rename_i hx; exact Sparse.get_dropWhere_in hx
  · rename_i hx; exact Sparse.get_dropWhere_out (by simpa using hx)

/-- A receipt map within 1..T stays so where T grows. -/
theorem marksWithin_grow {top top' lo : Nat} {ms : Table Mark} (h : top ≤ top')
    (hm : marksWithin top lo ms = true) : marksWithin top' lo ms = true := by
  induction ms generalizing lo with
  | nil => rfl
  | cons c ms ih =>
    simp only [marksWithin, Bool.and_eq_true, decide_eq_true_eq] at hm ⊢
    exact ⟨⟨hm.1.1, by omega⟩, ih hm.2⟩

/-- Setting the mark of a number 1..T keeps a receipt map rising within 1..T. -/
theorem marksWithin_setMarkIn {top lo n : Nat} {ms : Table Mark} (m : Mark) (hlo : lo ≤ n) (htop : n ≤ top)
    (hm : marksWithin top lo ms = true) : marksWithin top lo (setMarkIn n m ms) = true := by
  induction ms generalizing lo with
  | nil => simp [setMarkIn, marksWithin, hlo, htop]
  | cons c ms ih =>
    simp only [marksWithin, Bool.and_eq_true, decide_eq_true_eq] at hm
    simp only [setMarkIn]
    split
    · simp only [marksWithin, Bool.and_eq_true, decide_eq_true_eq]
      exact ⟨⟨hlo, htop⟩, ⟨by omega, hm.1.2⟩, hm.2⟩
    · split
      · rename_i _ he; subst he
        simp only [marksWithin, Bool.and_eq_true, decide_eq_true_eq]
        exact hm
      · simp only [marksWithin, Bool.and_eq_true, decide_eq_true_eq]
        exact ⟨hm.1, ih (by omega) hm.2⟩

theorem reset_mem_wf : Memory.wf State.reset.mem := rfl

end Sys2Proof.Machine
end

