-- ==== Sys2Proof/Laws/Steady.lean ====
section
/-! SUPPORT. What the settling of an event leaves alone: beside what no operation touches, the banks and
their queues in RAM, the flip coordinator, the want slots and answers, the counters and alerts, the
directory storage, the line and the home side. -/

set_option Elab.async false

namespace Sys2Proof.Machine

structure RepairSteady where
  slots : Vector (Option WantSlot) 8
  answers : List AnswerList
  runs : List AnswerRun
  builds : List AnswerBuild

def Repair.steady (x : Repair) : RepairSteady :=
  ⟨x.slots, x.answers, x.runs, x.builds⟩

structure DirectorySteady where
  places : Table PlaceState
  rewrite : Rewrite
  rewriteAgain : Bool
  storedMode : StoredMode
  sessionLock : Bool
  wel : Bool
  lockUsed : Nat
  lockWork : LockWork
  lockAgain : Bool

def Directory.steady (x : Directory) : DirectorySteady :=
  ⟨x.places, x.rewrite, x.rewriteAgain, x.storedMode, x.sessionLock, x.wel, x.lockUsed, x.lockWork, x.lockAgain⟩

structure TrunkSteady where
  line : LineState
  transmitting : Bool
  sources : Table (Option Micros)
  isolated : Bool
  isolationAt : Option Micros
  feedGrant : Bool

def Trunk.steady (x : Trunk) : TrunkSteady :=
  ⟨x.line, x.transmitting, x.sources, x.isolated, x.isolationAt, x.feedGrant⟩

structure AdoptSteady where
  home : Vector HomeSide 4
  trigger : Option Byte
  waitUntil : Option Micros

def Adopt.steady (x : Adopt) : AdoptSteady :=
  ⟨x.home, x.trigger, x.waitUntil⟩

/-- The state that the settling of an event leaves alone. -/
structure Steady where
  pending : List Instr
  now : Micros
  power : Power
  phase : Phase
  listenUntil : Option Micros
  straps : Straps
  mem : List Host.Cell
  dirFlash : Table PlaceContent
  lockFlash : Table LockContent
  resetLow : Bool
  fselLow : Bool
  feed : Feed
  bankA : Bank
  bankB : Bank
  holdQueue : List Kept
  unstored : List Kept
  flip : Flip
  counters : Counters
  alerts : Alerts
  repair : RepairSteady
  dir : DirectorySteady
  trunk : TrunkSteady
  adopt : AdoptSteady

def State.steady (s : State) : Steady :=
  { pending := s.pending
    now := s.now
    power := s.power
    phase := s.phase
    listenUntil := s.listenUntil
    straps := s.straps
    mem := s.mem
    dirFlash := s.dirFlash
    lockFlash := s.lockFlash
    resetLow := s.resetLow
    fselLow := s.fselLow
    feed := s.feed
    bankA := s.bankA
    bankB := s.bankB
    holdQueue := s.holdQueue
    unstored := s.unstored
    flip := s.flip
    counters := s.counters
    alerts := s.alerts
    repair := s.repair.steady
    dir := s.dir.steady
    trunk := s.trunk.steady
    adopt := s.adopt.steady }

theorem foldl_steady {α : Type} {f : State → α → State} (h : ∀ s a, (f s a).steady = s.steady) (l : List α)
    (s : State) : (l.foldl f s).steady = s.steady := by
  induction l generalizing s with
  | nil => rfl
  | cons a l ih => exact (ih _).trans (h s a)

@[simp] theorem dir_steady_mk (d : Directory) (entries : Table Entry) (walk : Option Walk) :
    Directory.steady ⟨entries, d.places, d.rewrite, d.rewriteAgain, d.storedMode, d.sessionLock, d.wel,
      d.lockUsed, d.lockWork, d.lockAgain, walk⟩ = d.steady := rfl

@[simp] theorem trunk_steady_mk (x : Trunk) (queue : List QueuedFrame) (waiters : List Producer)
    (counting digestAt : Option Micros) :
    Trunk.steady ⟨x.line, queue, waiters, x.feedGrant, counting, x.transmitting, x.sources, x.isolated,
      x.isolationAt, digestAt⟩ = x.steady := rfl

@[simp] theorem repair_steady_mk (x : Repair) (trailingAt : Option Micros) :
    Repair.steady ⟨x.slots, trailingAt, x.answers, x.runs, x.builds⟩ = x.steady := rfl

@[simp] theorem adopt_steady_mk (x : Adopt) (holder : HolderState) (silenceAt guardAt : Option Micros)
    (skip : List (Fin 4)) (heldFrom : Option HoldStart) :
    Adopt.steady ⟨holder, silenceAt, guardAt, skip, heldFrom, x.home, x.trigger, x.waitUntil⟩ = x.steady := rfl

/-- The steady state of a state given field by field. -/
@[simp] theorem steady_mk (pending : List Instr) (now : Micros) (draws : Nat) (power : Power) (phase : Phase)
    (listenUntil : Option Micros) (straps : Straps) (mem : List Host.Cell) (dirFlash : Table PlaceContent)
    (lockFlash : Table LockContent) (bankA bankB : Bank) (holdQueue unstored : List Kept) (flash : FlashEngine)
    (dir : Directory) (trunk : Trunk) (repair : Repair) (rails : Vector Rail 8) (engines : Vector Engine 4)
    (flip : Flip) (adopt : Adopt) (resetLow fselLow : Bool) (feed : Feed) (counters : Counters) (alerts : Alerts) :
    State.steady ⟨pending, now, draws, power, phase, listenUntil, straps, mem, dirFlash, lockFlash, bankA, bankB,
      holdQueue, unstored, flash, dir, trunk, repair, rails, engines, flip, adopt, resetLow, fselLow, feed, counters,
      alerts⟩
      = ⟨pending, now, power, phase, listenUntil, straps, mem, dirFlash, lockFlash, resetLow, fselLow, feed, bankA, bankB, holdQueue,
        unstored, flip, counters, alerts, repair.steady, dir.steady, trunk.steady, adopt.steady⟩ := rfl

@[simp] theorem steady_eta (s : State) :
    (⟨s.pending, s.now, s.power, s.phase, s.listenUntil, s.straps, s.mem, s.dirFlash, s.lockFlash, s.resetLow, s.fselLow, s.feed,
      s.bankA, s.bankB, s.holdQueue, s.unstored, s.flip, s.counters, s.alerts, s.repair.steady, s.dir.steady,
      s.trunk.steady, s.adopt.steady⟩ : Steady) = s.steady := rfl

@[simp] theorem State.drew_steady (s : State) : (State.drew s).steady = s.steady := by
  unfold State.drew; (try dsimp only); (repeat' split) <;> simp only [steady_mk, steady_eta, dir_steady_mk, trunk_steady_mk, repair_steady_mk, adopt_steady_mk]
@[simp] theorem serveHead_steady (s : State) : (serveHead s).steady = s.steady := by
  unfold serveHead; (try dsimp only); (repeat' split) <;> simp only [steady_mk, steady_eta, dir_steady_mk, trunk_steady_mk, repair_steady_mk, adopt_steady_mk]
theorem flashPush_read_steady (who : Reader) (b : Batch) (n : Nat) (s : State) :
    (flashPush (.read who b n) s).steady = s.steady := rfl
@[simp] theorem flashRequest_read_steady (who : Reader) (b : Batch) (n : Nat) (s : State) :
    (flashRequest (.read who b n) s).steady = s.steady := by
  unfold flashRequest; split <;> rfl

@[simp] theorem flashSettle_steady (s : State) : (flashSettle s).steady = s.steady := by
  unfold flashSettle; (try dsimp only); (repeat' split) <;> simp only [steady_mk, steady_eta, dir_steady_mk, trunk_steady_mk, repair_steady_mk, adopt_steady_mk, serveHead_steady]
@[simp] theorem enqueueFrame_steady (tag : Tag) (f : Frame) (s : State) : (enqueueFrame tag f s).steady = s.steady := by
  unfold enqueueFrame; (try dsimp only); (repeat' split) <;> simp only [steady_mk, steady_eta, dir_steady_mk, trunk_steady_mk, repair_steady_mk, adopt_steady_mk]
@[simp] theorem offer_yield_steady (s : State) : (offer .yield s).steady = s.steady := by
  unfold offer; (repeat' split) <;> rfl

@[simp] theorem contend_steady (s : State) : (contend s).steady = s.steady := by
  unfold contend; (repeat' split) <;> rfl
@[simp] theorem State.setRail_steady (s : State) (r : Fin 8) (x : Rail) : (State.setRail s r x).steady = s.steady := by
  unfold State.setRail; (try dsimp only); (repeat' split) <;> simp only [steady_mk, steady_eta, dir_steady_mk, trunk_steady_mk, repair_steady_mk, adopt_steady_mk]
@[simp] theorem State.setEngine_steady (s : State) (k : Fin 4) (e : Engine) : (State.setEngine s k e).steady = s.steady := by
  unfold State.setEngine; (try dsimp only); (repeat' split) <;> simp only [steady_mk, steady_eta, dir_steady_mk, trunk_steady_mk, repair_steady_mk, adopt_steady_mk]
@[simp] theorem State.setActivity_steady (s : State) (k : Fin 4) (a : Activity) : (State.setActivity s k a).steady = s.steady := by
  unfold State.setActivity; (try dsimp only); (repeat' split) <;> simp only [steady_mk, steady_eta, dir_steady_mk, trunk_steady_mk, repair_steady_mk, adopt_steady_mk, State.setEngine_steady]
@[simp] theorem askJob_steady (r : Fin 8) (k : JobKind) (p : Fin 64) (due : Option Micros) (s : State) : (askJob r k p due s).steady = s.steady := by
  unfold askJob; (try dsimp only); (repeat' split) <;> simp only [steady_mk, steady_eta, dir_steady_mk, trunk_steady_mk, repair_steady_mk, adopt_steady_mk, State.setRail_steady]
@[simp] theorem withdrawJobs_steady (r : Fin 8) (p : Fin 64) (q : JobKind → Bool) (s : State) : (withdrawJobs r p q s).steady = s.steady := by
  unfold withdrawJobs; (try dsimp only); (repeat' split) <;> simp only [steady_mk, steady_eta, dir_steady_mk, trunk_steady_mk, repair_steady_mk, adopt_steady_mk, State.setRail_steady]
@[simp] theorem disablePort_steady (r : Fin 8) (s : State) : (disablePort r s).steady = s.steady := by
  unfold disablePort; (try dsimp only); (repeat' split) <;> simp only [steady_mk, steady_eta, dir_steady_mk, trunk_steady_mk, repair_steady_mk, adopt_steady_mk, State.setRail_steady, State.setActivity_steady]
@[simp] theorem State.setEntry_steady (s : State) (i : Nat) (e : Entry) : (State.setEntry s i e).steady = s.steady := by
  unfold State.setEntry; (try dsimp only); (repeat' split) <;> simp only [steady_mk, steady_eta, dir_steady_mk, trunk_steady_mk, repair_steady_mk, adopt_steady_mk]
@[simp] theorem withdrawAt_steady (i : Nat) (q : JobKind → Bool) (s : State) : (withdrawAt i q s).steady = s.steady := by
  unfold withdrawAt; (try dsimp only); (repeat' split) <;> simp only [steady_mk, steady_eta, dir_steady_mk, trunk_steady_mk, repair_steady_mk, adopt_steady_mk, withdrawJobs_steady]
@[simp] theorem askAt_steady (i : Nat) (k : JobKind) (due : Option Micros) (s : State) : (askAt i k due s).steady = s.steady := by
  unfold askAt; (try dsimp only); (repeat' split) <;> simp only [steady_mk, steady_eta, dir_steady_mk, trunk_steady_mk, repair_steady_mk, adopt_steady_mk, askJob_steady]
@[simp] theorem entryJobs_steady (i : Nat) (before : EntryState) (s : State) : (entryJobs i before s).steady = s.steady := by
  unfold entryJobs; (try dsimp only); (repeat' split) <;> simp only [steady_mk, steady_eta, dir_steady_mk, trunk_steady_mk, repair_steady_mk, adopt_steady_mk, withdrawAt_steady, askAt_steady]
@[simp] theorem vacateEntry_steady (i : Nat) (s : State) : (vacateEntry i s).steady = s.steady := by
  unfold vacateEntry; (try dsimp only); (repeat' split) <;> simp only [steady_mk, steady_eta, dir_steady_mk, trunk_steady_mk, repair_steady_mk, adopt_steady_mk, withdrawAt_steady, State.setEntry_steady]
@[simp] theorem moveEntry_steady (i : Nat) (e : Entry) (s : State) : (moveEntry i e s).steady = s.steady := by
  unfold moveEntry; (try dsimp only); (repeat' split) <;> simp only [steady_mk, steady_eta, dir_steady_mk, trunk_steady_mk, repair_steady_mk, adopt_steady_mk, vacateEntry_steady, entryJobs_steady, State.setEntry_steady]
@[simp] theorem stageEntry_steady (b : Batch) (n : Nat) (f : Face) (i : Nat) (s : State) : (stageEntry b n f i s).steady = s.steady := by
  unfold stageEntry; (try dsimp only); (repeat' split) <;> simp only [steady_mk, steady_eta, dir_steady_mk, trunk_steady_mk, repair_steady_mk, adopt_steady_mk, moveEntry_steady]
@[simp] theorem stageWhere_steady (p : Nat → Bool) (b : Batch) (n : Nat) (r : Record) (s : State) : (stageWhere p b n r s).steady = s.steady := by
  unfold stageWhere; (try dsimp only); (repeat' split) <;> (try simp only [steady_mk, steady_eta, dir_steady_mk, trunk_steady_mk, repair_steady_mk, adopt_steady_mk, stageEntry_steady]) <;> (try rw [foldl_steady]) <;>
    (try rw [foldl_steady]) <;> (try intro s a) <;> (try dsimp only) <;> (repeat' split) <;> (try simp only [steady_mk, steady_eta, dir_steady_mk, trunk_steady_mk, repair_steady_mk, adopt_steady_mk, stageEntry_steady])
@[simp] theorem walkMarks_steady (w : Walk) (b : Batch) (ms : Table Mark) (s : State) :
    (walkMarks w b ms s).1.steady = s.steady := by
  induction ms generalizing s with
  | nil => rfl
  | cons c ms ih =>
    simp only [walkMarks]
    (repeat' split) <;> simp only [ih, dir_steady_mk, flashRequest_read_steady, steady_mk, steady_eta, stageWhere_steady]
@[simp] theorem walkBanks_steady (w : Walk) (bs : List Batch) (s : State) :
    (walkBanks w bs s).steady = s.steady := by
  induction bs generalizing w s with
  | nil => rfl
  | cons b bs ih =>
    have hm := fun w => walkMarks_steady w b (marksOf s b) s
    unfold walkBanks
    split
    · rename_i h; rw [← hm { w with batches := b :: bs }, h]
    · rename_i h; rw [ih, ← hm { w with batches := b :: bs }, h]
@[simp] theorem walkOn_steady (s : State) : (walkOn s).steady = s.steady := by
  unfold walkOn; (try dsimp only); (repeat' split) <;> simp only [steady_mk, steady_eta, dir_steady_mk, trunk_steady_mk, repair_steady_mk, adopt_steady_mk, walkBanks_steady]
@[simp] theorem walkSettle_steady (s : State) : (walkSettle s).steady = s.steady := by
  unfold walkSettle; (try dsimp only); (repeat' split) <;> (try simp only [steady_mk, steady_eta, dir_steady_mk, trunk_steady_mk, repair_steady_mk, adopt_steady_mk, State.setEntry_steady, walkOn_steady]) <;> (try rw [foldl_steady]) <;>
    (try rw [foldl_steady]) <;> (try intro s a) <;> (try dsimp only) <;> (repeat' split) <;> (try simp only [steady_mk, steady_eta, dir_steady_mk, trunk_steady_mk, repair_steady_mk, adopt_steady_mk, State.setEntry_steady, walkOn_steady])
@[simp] theorem trailingSettle_steady (s : State) : (trailingSettle s).steady = s.steady := by
  unfold trailingSettle; (try dsimp only); (repeat' split) <;> simp only [steady_mk, steady_eta, dir_steady_mk, trunk_steady_mk, repair_steady_mk, adopt_steady_mk]
@[simp] theorem onRail_steady (r : Fin 8) (f : Rail → Rail) (s : State) : (onRail r f s).steady = s.steady := by
  unfold onRail; (try dsimp only); (repeat' split) <;> simp only [steady_mk, steady_eta, dir_steady_mk, trunk_steady_mk, repair_steady_mk, adopt_steady_mk, State.setRail_steady]
@[simp] theorem openSession_steady (r : Fin 8) (kind : SessionKind) (p : Fin 64) (record : Option (Batch × Nat)) (s : State) : (openSession r kind p record s).steady = s.steady := by
  unfold openSession; (try dsimp only); (repeat' split) <;> simp only [steady_mk, steady_eta, dir_steady_mk, trunk_steady_mk, repair_steady_mk, adopt_steady_mk, State.setEngine_steady]
@[simp] theorem openJob_steady (r : Fin 8) (kind : JobKind) (p : Fin 64) (record : Option (Batch × Nat)) (s : State) : (openJob r kind p record s).steady = s.steady := by
  unfold openJob; (try dsimp only); (repeat' split) <;> simp only [steady_mk, steady_eta, dir_steady_mk, trunk_steady_mk, repair_steady_mk, adopt_steady_mk, openSession_steady, onRail_steady]
@[simp] theorem removeJob_steady (r : Fin 8) (kind : JobKind) (p : Fin 64) (s : State) : (removeJob r kind p s).steady = s.steady := by
  unfold removeJob; (try dsimp only); (repeat' split) <;> simp only [steady_mk, steady_eta, dir_steady_mk, trunk_steady_mk, repair_steady_mk, adopt_steady_mk, withdrawJobs_steady]
@[simp] theorem openProving_steady (r : Fin 8) (s : State) : (openProving r s).steady = s.steady := by
  unfold openProving; (try dsimp only); (repeat' split) <;> simp only [steady_mk, steady_eta, dir_steady_mk, trunk_steady_mk, repair_steady_mk, adopt_steady_mk, openSession_steady, onRail_steady]
@[simp] theorem openPreload_steady (r : Fin 8) (p : Fin 64) (x : PendingRecord) (s : State) : (openPreload r p x s).steady = s.steady := by
  unfold openPreload; (try dsimp only); (repeat' split) <;> simp only [steady_mk, steady_eta, dir_steady_mk, trunk_steady_mk, repair_steady_mk, adopt_steady_mk, openJob_steady, moveEntry_steady]
@[simp] theorem selectPreload_steady (r : Fin 8) (p : Fin 64) (s : State) : (selectPreload r p s).1.steady = s.steady := by
  unfold selectPreload; (try dsimp only); (repeat' split) <;> simp only [steady_mk, steady_eta, dir_steady_mk, trunk_steady_mk, repair_steady_mk, adopt_steady_mk, removeJob_steady, State.setActivity_steady, openPreload_steady, flashRequest_read_steady]
@[simp] theorem takeUp_steady (r : Fin 8) (kind : SessionKind) (p : Fin 64) (s : State) : (takeUp r kind p s).1.steady = s.steady := by
  unfold takeUp; (try dsimp only); (repeat' split) <;> simp only [steady_mk, steady_eta, dir_steady_mk, trunk_steady_mk, repair_steady_mk, adopt_steady_mk, openSession_steady, onRail_steady, openProving_steady, selectPreload_steady, openJob_steady, removeJob_steady]
@[simp] theorem chooseNext_steady (k : Fin 4) (n : Nat) (s : State) : (chooseNext k n s).steady = s.steady := by
  induction n generalizing s with
  | zero => rfl
  | succ n ih =>
    unfold chooseNext
    split
    · split
      · rfl
      · rename_i r kind p _
        have ht := takeUp_steady r kind p s
        split
        · rename_i h; rw [← ht, h]
        · rename_i h; rw [ih, ← ht, h]
    · rfl
@[simp] theorem railsSettle_steady (s : State) : (railsSettle s).steady = s.steady := by
  unfold railsSettle; (try dsimp only); (repeat' split) <;> (try simp only [steady_mk, steady_eta, dir_steady_mk, trunk_steady_mk, repair_steady_mk, adopt_steady_mk, chooseNext_steady]) <;> (try rw [foldl_steady]) <;>
    (try rw [foldl_steady]) <;> (try intro s a) <;> (try dsimp only) <;> (repeat' split) <;> (try simp only [steady_mk, steady_eta, dir_steady_mk, trunk_steady_mk, repair_steady_mk, adopt_steady_mk, chooseNext_steady])
@[simp] theorem censusClosed_steady (r : Fin 8) (s : State) : (censusClosed r s).steady = s.steady := by
  unfold censusClosed; (try dsimp only); (repeat' split) <;> (try simp only [steady_mk, steady_eta, dir_steady_mk, trunk_steady_mk, repair_steady_mk, adopt_steady_mk, State.setEntry_steady, onRail_steady]) <;> (try rw [foldl_steady]) <;>
    (try rw [foldl_steady]) <;> (try intro s a) <;> (try dsimp only) <;> (repeat' split) <;> (try simp only [steady_mk, steady_eta, dir_steady_mk, trunk_steady_mk, repair_steady_mk, adopt_steady_mk, State.setEntry_steady, onRail_steady])
@[simp] theorem censusSettle_steady (s : State) : (censusSettle s).steady = s.steady := by
  unfold censusSettle; (try dsimp only); (repeat' split) <;> (try simp only [steady_mk, steady_eta, dir_steady_mk, trunk_steady_mk, repair_steady_mk, adopt_steady_mk, censusClosed_steady]) <;> (try rw [foldl_steady]) <;>
    (try rw [foldl_steady]) <;> (try intro s a) <;> (try dsimp only) <;> (repeat' split) <;> (try simp only [steady_mk, steady_eta, dir_steady_mk, trunk_steady_mk, repair_steady_mk, adopt_steady_mk, censusClosed_steady])
@[simp] theorem startSilence_steady (s : State) : (startSilence s).steady = s.steady := by
  unfold startSilence; (try dsimp only); (repeat' split) <;> simp only [steady_mk, steady_eta, dir_steady_mk, trunk_steady_mk, repair_steady_mk, adopt_steady_mk]
@[simp] theorem enterWatching_steady (s : State) : (enterWatching s).steady = s.steady := by
  unfold enterWatching; (try dsimp only); (repeat' split) <;> simp only [steady_mk, steady_eta, dir_steady_mk, trunk_steady_mk, repair_steady_mk, adopt_steady_mk, startSilence_steady]
@[simp] theorem releaseCross_steady (r : Fin 8) (s : State) : (releaseCross r s).steady = s.steady := by
  unfold releaseCross; (try dsimp only); (repeat' split) <;> simp only [steady_mk, steady_eta, dir_steady_mk, trunk_steady_mk, repair_steady_mk, adopt_steady_mk, disablePort_steady, onRail_steady]
@[simp] theorem finishYield_steady (s : State) : (finishYield s).steady = s.steady := by
  unfold finishYield; (try dsimp only); (repeat' split) <;> simp only [steady_mk, steady_eta, dir_steady_mk, trunk_steady_mk, repair_steady_mk, adopt_steady_mk, enterWatching_steady, offer_yield_steady]
@[simp] theorem yieldSettle_steady (s : State) : (yieldSettle s).steady = s.steady := by
  unfold yieldSettle; (try dsimp only); (repeat' split) <;> (try simp only [steady_mk, steady_eta, dir_steady_mk, trunk_steady_mk, repair_steady_mk, adopt_steady_mk, releaseCross_steady, finishYield_steady]) <;> (try rw [foldl_steady]) <;>
    (try rw [foldl_steady]) <;> (try intro s a) <;> (try dsimp only) <;> (repeat' split) <;> (try simp only [steady_mk, steady_eta, dir_steady_mk, trunk_steady_mk, repair_steady_mk, adopt_steady_mk, releaseCross_steady, finishYield_steady])
@[simp] theorem startDigest_steady (s : State) : (startDigest s).steady = s.steady := by
  unfold startDigest; dsimp only; split <;> rfl
@[simp] theorem digestSettle_steady (before s : State) : (digestSettle before s).steady = s.steady := by
  unfold digestSettle; (try dsimp only); (repeat' split) <;> simp only [steady_mk, steady_eta, dir_steady_mk, trunk_steady_mk, repair_steady_mk, adopt_steady_mk, startDigest_steady]
@[simp] theorem settle_steady (before s : State) : (settle before s).steady = s.steady := by
  unfold settle; (try dsimp only); (repeat' split) <;> simp only [steady_mk, steady_eta, dir_steady_mk, trunk_steady_mk, repair_steady_mk, adopt_steady_mk, digestSettle_steady, contend_steady, flashSettle_steady, railsSettle_steady, yieldSettle_steady, walkSettle_steady, censusSettle_steady, trailingSettle_steady]

end Sys2Proof.Machine
end

