-- ==== Sys2Proof/Laws/Work.lean ====
section
/-! SUPPORT. What asking for, withdrawing and changing jobs leaves of the jobs of a work list (R128). -/

set_option Elab.async false

namespace Sys2Proof.Machine

/-! ### Jobs of one rail -/

/-- A job found on the list is of the kind and position asked for. -/
theorem Rail.isFor_of_job? {r : Rail} {k : JobKind} {p : Fin 64} {j : Job} (h : r.job? k p = some j) :
    Job.isFor k p j = true :=
  List.find?_some h

/-- A job of one kind and position is of no other kind. -/
theorem Job.isFor_other {k l : JobKind} {p q : Fin 64} {j : Job} (h : Job.isFor k p j = true) (ne : l ≠ k) :
    Job.isFor l q j = false := by
  simp only [Job.isFor, decide_eq_true_eq, decide_eq_false_iff_not] at h ⊢
  exact fun c => ne (c.1.symm.trans h.1)

/-- R128: a request leaves a listed job as it stands, and a list that has none has it then as asked. -/
theorem Rail.job?_ask (r : Rail) (k : JobKind) (p : Fin 64) (due : Option Micros) :
    (r.ask k p due).job? k p = some ((r.job? k p).getD (Job.make k p due)) := by
  unfold Rail.ask Rail.job?
  split
  · rename_i h
    obtain ⟨j, hj⟩ := Option.isSome_iff_exists.1 ((List.find?_isSome).2 (List.any_eq_true.1 h))
    simp [hj]
  · rename_i h
    have none : r.work.find? (Job.isFor k p) = none := List.find?_eq_none.2 fun j hj c => h (List.any_eq_true.2 ⟨j, hj, c⟩)
    simp [List.find?_append, none, Job.isFor, Job.make]

/-- R128: a request adds no job of another kind. -/
theorem Rail.job?_ask_other (r : Rail) {k l : JobKind} (p q : Fin 64) (due : Option Micros) (ne : l ≠ k) :
    (r.ask k p due).job? l q = r.job? l q := by
  have new : Job.isFor l q (Job.make k p due) = false := Job.isFor_other (k := k) (p := p) (by simp [Job.isFor, Job.make]) ne
  unfold Rail.ask Rail.job?
  split
  · rfl
  · simp [List.find?_append, new]

/-- A job that the withdrawal does not name stays as it stands. -/
theorem Rail.job?_withdraw (r : Rail) (q : Job → Bool) (k : JobKind) (p : Fin 64)
    (kept : ∀ j, Job.isFor k p j = true → q j = false) : (r.withdraw q).job? k p = r.job? k p := by
  unfold Rail.withdraw Rail.job?
  simp only [List.find?_filter]
  congr 1
  funext j
  cases h : Job.isFor k p j <;> simp [h, kept]

/-- A change that keeps kind and position acts on the job it names. -/
theorem Rail.job?_updateJob (r : Rail) (k : JobKind) (p : Fin 64) (f : Job → Job)
    (keeps : ∀ j, Job.isFor k p (f j) = Job.isFor k p j) :
    (r.updateJob k p f).job? k p = (r.job? k p).map f := by
  unfold Rail.updateJob Rail.job?
  simp only [List.find?_map]
  have same : (Job.isFor k p ∘ fun j => if Job.isFor k p j then f j else j) = Job.isFor k p := by
    funext j
    by_cases h : Job.isFor k p j = true <;> simp [h, keeps]
  rw [same]
  cases h : r.work.find? (Job.isFor k p) with
  | none => rfl
  | some j => simp [List.find?_some h]

/-! ### Jobs of a slot -/

/-- R102: what a give-up withdraws at a position leaves a listed REVISIT of any position as it stands. -/
theorem withdrawAt_keeps_revisit (i : Nat) (r : Fin 8) (p : Fin 64) (q : JobKind → Bool) (s : State)
    (kept : q .revisit = false) : ((withdrawAt i q s).rail r).job? .revisit p = (s.rail r).job? .revisit p := by
  unfold withdrawAt withdrawJobs
  by_cases h : r = railOf i
  · subst h
    rw [State.rail_setRail_same]
    refine Rail.job?_withdraw _ _ _ _ fun j hj => ?_
    have kind : j.kind = .revisit := by
      simp only [Job.isFor, decide_eq_true_eq] at hj
      exact hj.1
    simp [kind, kept]
  · rw [State.rail_setRail_other _ _ h]

/-- R128: a job is on the list once asked for, as it stood or as asked, where nothing bars it (R96, R173). -/
theorem askAt_job? (i : Nat) (k : JobKind) (due : Option Micros) (s : State)
    (free : ¬(isCross (railOf i) ∧ s.adopt.holder = .yielding ∧ yieldBars k))
    (served : ¬(k = .preload ∧ (s.rail (railOf i)).state = .dead)) :
    ((askAt i k due s).rail (railOf i)).job? k (posOf i)
      = some (((s.rail (railOf i)).job? k (posOf i)).getD (Job.make k (posOf i) due)) := by
  unfold askAt askJob
  rw [if_neg free, if_neg served, State.rail_setRail_same, Rail.job?_ask]

/-- R128: asking a slot for a job of another kind leaves the jobs of a kind as they stand. -/
theorem askAt_job?_other (i : Nat) {k l : JobKind} (due : Option Micros) (r : Fin 8) (p : Fin 64) (s : State)
    (ne : l ≠ k) : ((askAt i k due s).rail r).job? l p = (s.rail r).job? l p := by
  unfold askAt askJob
  split
  · rfl
  · split
    · rfl
    · by_cases h : r = railOf i
      · subst h
        rw [State.rail_setRail_same, Rail.job?_ask_other _ _ _ _ ne]
      · rw [State.rail_setRail_other _ _ h]

/-- R96, R139: the jobs that follow an entry's state touch no REVISIT. -/
theorem entryJobs_keeps_revisit (i : Nat) (before : EntryState) (r : Fin 8) (p : Fin 64) (s : State) :
    ((entryJobs i before s).rail r).job? .revisit p = (s.rail r).job? .revisit p := by
  have stale := withdrawAt_keeps_revisit i r p (staleJob s (s.entry i)) s rfl
  unfold entryJobs
  dsimp only
  split
  · rw [askAt_job?_other _ _ _ _ _ (by decide), stale]
  · split
    · rw [askAt_job?_other _ _ _ _ _ (by decide), stale]
    · exact stale

/-- An entry that changes keeps its REVISIT, unless it is one waiting to be cleared (R108). -/
theorem moveEntry_keeps_revisit (i : Nat) (e : Entry) (r : Fin 8) (p : Fin 64) (s : State)
    (clear : e.clearWaiting = false) : ((moveEntry i e s).rail r).job? .revisit p = (s.rail r).job? .revisit p := by
  unfold moveEntry
  dsimp only
  rw [if_neg (by simp [clear]), entryJobs_keeps_revisit]
  rfl

/-- R102, R128: a give-up leaves a listed REVISIT of its position as it stands (log entry 37). -/
theorem giveUpEntry_keeps_listed_revisit (i : Nat) (target : EntryState) (s : State) (j : Job)
    (listed : (s.rail (railOf i)).job? .revisit (posOf i) = some j) (clear : (s.entry i).clearWaiting = false) :
    ((giveUpEntry i target s).rail (railOf i)).job? .revisit (posOf i) = some j := by
  have kept : (givenUp target (s.entry i)).clearWaiting = false := by unfold givenUp; split <;> exact clear
  have before : ∀ q : JobKind → Bool, q .revisit = false →
      ((withdrawAt i q (moveEntry i (givenUp target (s.entry i)) s)).rail (railOf i)).job? .revisit (posOf i)
        = some j := fun q hq => by
    rw [withdrawAt_keeps_revisit _ _ _ _ _ hq, moveEntry_keeps_revisit _ _ _ _ _ kept, listed]
  unfold giveUpEntry
  dsimp only
  split
  · exact before _ rfl
  · by_cases free : isCross (railOf i) ∧ (withdrawAt i (fun k => k ≠ .revisit)
        (moveEntry i (givenUp target (s.entry i)) s)).adopt.holder = .yielding ∧ yieldBars .revisit
    · unfold askAt askJob
      rw [if_pos free]
      exact before _ rfl
    · rw [askAt_job? _ _ _ _ free (by simp), before _ rfl]
      rfl

end Sys2Proof.Machine
end

