-- ==== Sys2Proof/Tests/Slice0.lean ====
section
/-! SUPPORT. Tests: the checks of well-formedness, values taken from the spec's tables and worked
examples, single commands on small states, and a witness for the hypotheses of every statement. -/

set_option Elab.async false

namespace Sys2Proof.Tests

open Sys2Proof.Machine

/-! ### Well-formedness refuses an ill-formed term of each check -/

theorem test_wf_transactionEnd : (Instr.transactionEnd 0 17 [0x20]).wf = false := by decide
theorem test_wf_frameDiscarded : (Instr.frameDiscarded 0 false (List.replicate 262 0)).wf = false := by
  decide +kernel
theorem test_wf_source : (Instr.stopFrame 0 255 1).wf = false ∧ (Instr.flipFrame 0 0 1 false).wf = false := by
  decide
theorem test_wf_count : (Instr.openFrame 0 1 1 0 false).wf = false
    ∧ (Instr.openFrame 0 1 1 32768 false).wf = false := by decide
theorem test_wf_records : (Instr.priceFrame 0 1 1 false []).wf = false
    ∧ (Instr.priceFrame 0 1 1 false [[0]]).wf = false := by decide
theorem test_wf_digest : (Instr.digestFrame 0 1 ⟨none, .none, 0, 0, none, 0, 0, none, .none, 0, 0, 255, false, false⟩).wf
    = false := by decide
theorem test_wf_ranges : (Instr.wantFrame 0 1 1 [(5, 4)]).wf = false ∧ (Instr.wantFrame 0 1 1 []).wf = false := by
  decide
theorem test_wf_partner : (Instr.claimFrame 0 1 0).wf = false ∧ (Instr.yieldFrame 0 1 255).wf = false := by decide
theorem test_wf_pattern : (Instr.provingSessionEnd 0 0 .done [1]).wf = false := by decide
theorem test_wf_answers : (Instr.censusSessionEnd 0 0 .done .nothing).wf = false
    ∧ (Instr.revisitSessionEnd 0 0 .done (.ident ⟨0, []⟩)).wf = false
    ∧ (Instr.pollSessionEnd 0 0 .checkRefused (.status ⟨.showing, none, none⟩)).wf = false
    ∧ (Instr.refusalCheckEnd 0 0 .done .nothing).wf = false := by decide
theorem test_wf_kinds : (Instr.identityDue 0 0 .poll 0).wf = false
    ∧ (Instr.identityDueTimeout 0 0 .swap 0).wf = false ∧ (Instr.refusedJobRetry 0 0 .poll 0).wf = false := by
  decide
theorem test_wf_accepts : (Instr.openFrame 0 1 1 32767 false).wf = true
    ∧ (Instr.wantFrame 0 254 1 [(0, 0), (4, 9)]).wf = true := by decide
/-- Log entry 27: no row of the table gives bits. -/
theorem test_no_words : decodeTableWord 8 0x20 = none := by decide

/-! ### Batch numbers: the table of R19 -/

theorem test_newer_table : newer 412 411 = true ∧ newer 411 412 = false ∧ newer 5 65530 = true
    ∧ newer 40000 7232 = false ∧ newer 7232 40000 = false := by decide +kernel

/-! ### The composed face: the worked cases of section 1.6 -/

def markdownOf (p m : Nat) (e : EndingRule) (pack : Option Pack) : PriceRecord :=
  ⟨1, 1, 0, .markdown, p, some m, some e, none, pack⟩

theorem test_face_end99_per_kg :
    let f := compose (markdownOf 1249 30 .end99 (some ⟨400, 1000, .perKg⟩))
    f.kind = .markdown ∧ f.shown = 799 ∧ f.base = 1249 ∧ f.unitPrice = .value 1998 := by decide +kernel
theorem test_face_void : (compose (markdownOf 1 1 .none none)).kind = .regular
    ∧ (compose (markdownOf 1 1 .none none)).markdownVoid = true := by decide +kernel
theorem test_face_endings : (compose (markdownOf 1000 20 .end95 none)).shown = 795
    ∧ (compose (markdownOf 180 50 .end95 none)).shown = 90
    ∧ (compose (markdownOf 2450 25 .whole none)).shown = 1800 := by decide +kernel
theorem test_face_multi :
    let f := compose ⟨1, 1, 0, .multi, 349, none, none, some (3, 900), some ⟨330, 1000, .perLitre⟩⟩
    f.kind = .multi ∧ f.shown = 349 ∧ f.unitPrice = .value 1058 := by decide +kernel
theorem test_face_multi_void :
    let f := compose ⟨1, 1, 0, .multi, 250, none, none, some (4, 1000), none⟩
    f.kind = .regular ∧ f.multiVoid = true ∧ f.multi = none := by decide +kernel
theorem test_face_overflow :
    let f := compose ⟨1, 1, 0, .regular, 9999999, none, none, none, some ⟨1, 1000, .perKg⟩⟩
    f.unitPrice = .overflow ∧ f.unitOver = true := by decide +kernel

/-! ### Formats: words spelled byte by byte from R65 -/

/-- Record 7 of batch 411: article 00000000000012, REGULAR, 2.50. -/
def rec7 : Record :=
  [0x00, 0x07, 0x01, 0x9B, 0, 0, 0, 0, 0, 0, 0x12, 0x01, 0x00, 0x00, 0x00, 0xFA, 0, 0, 0, 0, 0, 0, 0, 0, 0, 0, 0,
    0, 0, 0, 0x01, 0xB0]

theorem test_record_fields : judgeRecord rec7 = .ok ⟨7, 411, 12, .regular, 250, none, none, none, none⟩ := by
  decide +kernel
theorem test_record_check : judgeRecord (rec7.set 15 0xFB) = .error .recordCheck := by decide +kernel
theorem test_claim_payload : framePayload 31 (.claim 32) = [0x12, 0x1F, 0x01, 0x20] := by decide +kernel
theorem test_stop_payload : framePayload 40 (.stop 414) = [0x05, 0x28, 0x02, 0x01, 0x9E] := by decide +kernel
theorem test_read_entry_word : feedCommandOf 0x21 = some .readEntry
    ∧ judgeTransaction 4 [0x21, 0x02, 0x01, 0x46] = .wellFormed ∧ field [0x01, 0x46] 0 2 = 326 := by decide +kernel
theorem test_bad_length_word : judgeTransaction 3 [0x30, 0x00, 0x00] = .badLength
    ∧ judgeTransaction 1 [0x20] = .badLength ∧ judgeTransaction 2 [0x41, 0] = .unknownCommand := by decide +kernel
/-- R123: "The first two bytes of block 1 are 0x00 and 0x60." -/
theorem test_pattern : (blockBits 0).take 16 = bitsOf [0x00, 0x60] := by decide +kernel
/-- R195 to R197 with R188: the lengths of the result bodies. -/
theorem test_body_lengths : (statusRecord State.reset).length = 72
    ∧ (entryBody 0 0 Entry.vacant).length = 29 ∧ (countersBody Counters.zero).length = 26 := by decide +kernel

/-- R113's table: STATUS, WRITE_PENDING, SWAP, IDENT and ASSIGN of 8, 32, no, 11 and 7 data bytes. -/
theorem test_label_session_times :
    [LabelCommand.status, .writePending (List.replicate 32 0), .swap, .ident, .assign (List.replicate 7 0)].map
      (fun c => sessionBits (sessionBytes (c.session 5) (fun _ => true)
        ((Label.mk 1 none none none .showing).reads c))) = [92, 308, 20, 119, 83] := by decide +kernel
/-- R113's table: PATTERN_READ of 64 data bytes, LOOP_ON, and an address that is not acknowledged. -/
theorem test_other_session_times :
    sessionBits (sessionBytes TerminatorCommand.patternRead.session (fun _ => true) (List.replicate 64 0)) = 596
      ∧ sessionBits (terminatorBytes (some Terminator.powerRise) .loopOn) = 20
      ∧ sessionBits (labelBytes none 5 .status) = 11 := by decide +kernel

/-! ### Small states -/

/-- Station 31 with partner 32 in RUN. -/
def run0 : State :=
  { State.reset with phase := .run, straps := ⟨31, 32, true, 0⟩, now := 1000 }

/-- Station 0. -/
def mute0 : State := { run0 with straps := ⟨0, 32, true, 0⟩ }

def nextBank (n : Nat) : Bank :=
  { Bank.blank with role := .next, batch := some 411, count := n, header := some .written, placesUsed := [0] }

def liveBank (n : Nat) : Bank :=
  { Bank.blank with role := .live, batch := some 410, count := n, header := some .written, placesUsed := [0] }

/-- Live batch 410 in bank B and next batch 411 with 9 records in bank A. -/
def two : State := { run0 with bankA := nextBank 9, bankB := liveBank 3 }

def withHead (c : FeedCommand) (body : List Byte) (s : State) : State :=
  { s with feed := { s.feed with buffer := [⟨[c.code, BitVec.ofNat 8 body.length] ++ body, .wellFormed⟩] } }

theorem withHead_headIs (c : FeedCommand) (body : List Byte) (s : State) (hp : s.power = .on)
    (hr : s.feed.results.length < 4) : (withHead c body s).headIs c body [] :=
  ⟨hp, hr, _, rfl, by cases c <;> rfl, rfl⟩

theorem run0_headIs (c : FeedCommand) (body : List Byte) : (withHead c body run0).headIs c body [] :=
  withHead_headIs c body run0 rfl (by decide)

def withEntry (i : Nat) (e : Entry) (s : State) : State := s.setEntry i e

/-- An entry with article 12. -/
def entry12 (x : EntryState) : Entry := { Entry.vacant with article := some 12, state := x }

/-- Rail `r` enabled with power, in state `x`, with a work list. -/
def withRail (r : Fin 8) (x : RailState) (work : List Job) (s : State) : State :=
  s.setRail r { Rail.reset true with enabled := true, state := x, work := work }

def runningJob (k : JobKind) : Job := { Job.make k 0 none with running := true }

/-- Engine 0 in the session of a job of kind `k` at position 0 of rail 0. -/
def inJob (k : JobKind) (s : State) : State :=
  (withRail 0 .proven [runningJob k] s).setActivity 0 (.session 0 (.job k) 0 none)

theorem inJob_carries (k : JobKind) (s : State) (hp : s.power = .on) :
    (inJob k s).carries 0 k 0 0 (runningJob k) :=
  ⟨hp, ⟨none, by simp [inJob, State.setActivity, State.engine, State.setEngine]⟩, rfl, by
    cases k <;> simp [inJob, withRail, State.setActivity, State.setEngine, State.rail, State.setRail, Rail.job?,
      runningJob, Job.isFor, Job.make], rfl⟩

def hearing (s : State) : State := { s with trunk := { s.trunk with line := .busy } }

/-- A frame with a first window and no count. -/
def queued (f : Frame) (tag : Tag) : QueuedFrame := ⟨f, tag, 16, 0, none⟩

/-! ### Single commands against the spec's words -/

/-- R104. -/
theorem test_write_enable : (match exec (.writeEnable 1000) (withHead .writeEnable [] run0) with
    | .next u => u.dir.wel && u.feed.results = [⟨0x30, .done, []⟩]
    | _ => false) = true := by decide +kernel
/-- R103: no write-enable latch. -/
theorem test_refused_wel : (match exec (.setLock 1000 true) (withHead .setLock [2] run0) with
    | .next u => u.dir.sessionLock = false && u.feed.results = [⟨0x34, .refusedWel, []⟩]
    | _ => false) = true := by decide +kernel
/-- R190: a newer batch opens as next. -/
theorem test_open_batch : (match exec (.openBatch 1000)
      { withHead .openBatch [0x01, 0x9B, 0x00, 0x14] run0 with trunk := { run0.trunk with feedGrant := true } } with
    | .next u => u.nextBatch = some 411 && u.feed.results = [⟨0x10, .done, []⟩]
    | _ => false) = true := by decide +kernel
/-- R149, R150: a FLIP for the next batch begins a hold of 3 s and 750 ms. -/
theorem test_flip_hold : (match exec (.flipFrame 2000 7 411 false) (hearing two) with
    | .next u => u.flip.hold = some ⟨3002000, 752000⟩
    | _ => false) = true := by decide +kernel
/-- R30: a STOP for the live batch drops nothing. -/
theorem test_stop_live : (match exec (.stopFrame 2000 7 410) (hearing two) with
    | .next u => u.liveBatch = some 410 && u.nextBatch = some 411
    | _ => false) = true := by decide +kernel
/-- R29: a record of the next batch is programmed and STORED. -/
theorem test_price_stored : (match exec (.priceFrame 2000 7 411 false [rec7]) (hearing two) with
    | .next u => u.bankA.mark 7 = some .stored && u.flash.queue.length = 1
    | _ => false) = true := by decide +kernel
/-- R140, R141: a SWAP that ends DONE. -/
theorem test_swap_done : (match exec (.swapSessionEnd 2000 0 .done)
      (inJob .swap (withEntry 0 { entry12 .preloaded with pending := some ⟨411, 7, none⟩ } two)) with
    | .next u => (u.entry 0).state = .swapping && (u.entry 0).refreshStart = some 2000
    | _ => false) = true := by decide +kernel
/-- R124: a LOOP_ON refused by its address leaves the rail DEGRADED. -/
theorem test_proving_degraded : (match exec (.provingSessionEnd 2000 0 .addressRefused [])
      ((run0.setRail 0 { Rail.reset true with enabled := true, proving := some ⟨.unproven, 0, 0⟩ }).setActivity 0
        (.session 0 (.job .prove) 0 none)) with
    | .next u => (u.rail 0).state = .degraded
    | _ => false) = true := by decide +kernel
/-- R53: the isolation timer. -/
theorem test_isolation : (match exec (.isolationTimerExpiry 60000000)
      { run0 with trunk := { run0.trunk with isolationAt := some 60000000 } } with
    | .next u => u.trunk.isolated && u.alerts.isolated
    | _ => false) = true := by decide +kernel
/-- R21, section 2.2: an erase leaves every byte of its sector erased and no other. -/
theorem test_sector_erase : (match exec (.sectorEraseComplete 2000)
      { run0 with mem := [(4095, 0), (4096, 0)], flash := { run0.flash with erase := some ⟨.sector .a 1, .running 2000⟩ } } with
    | .next u => u.mem = [(4095, 0)]
    | _ => false) = true := by decide +kernel
/-- R178: 20 s of WAIT_RELEASE. -/
theorem test_wait_release : (match exec (.waitReleaseTimeout 21000000)
      { run0 with adopt := { run0.adopt with waitUntil := some 20001000, trigger := some 32 } } with
    | .next u => u.adopt.home[0] = .taking (some 21005000)
    | _ => false) = true := by decide +kernel

/-- R96, R135: the page a PRELOAD opened with is sent on though its bank is retired meanwhile. -/
theorem test_preload_keeps_its_page :
    let s := withRail 0 .proven [Job.make .preload 0 none] (withEntry 0
      { entry12 .staged with pending := some ⟨411, 7, none⟩ }
      { two with bankA := { nextBank 9 with marks := [(7, .unstored)] }, unstored := [⟨.a, 7, rec7⟩] })
    let u := retireBank .a (railsSettle s)
    u.record 411 7 = none ∧ (engineSends u 0).map (fun x => x.writes.length) = some 32 := by decide +kernel
/-- R25: sector 0 of a bank whose header is WRITTEN has been erased: T goes into count place 0. -/
theorem test_count_place_after_erase :
    (mergeCount 12 (sectorErased .a 0 { two with bankA := { nextBank 9 with placesUsed := [0, 1] } })).flash.queue
      = [.countPlace .a 0 12] := by decide +kernel
/-- R21, R24: the RETIRED mark goes into sector 0, clean before: it is to be erased. -/
theorem test_retired_mark_soils : let u := logStop 411 two
    u.flash.queue = [.mark .a true] ∧ u.bankA.dirty = [0] ∧ u.bankA.eraseList = [0] := by decide +kernel
/-- R21, R30: a mark of the batch before, asked for during the erase of sector 0, has it erased again
before the header of the next batch. -/
theorem test_sector_erased_again : let u := sectorErased .a 0 (logOpen 412 5 two)
    (u.bankA.header, u.bankA.eraseList, u.bankA.dirty, u.flash.queue) = (some .waiting, [0], [0], [.mark .a true]) := by
  decide +kernel
/-- R91, R111: the article of a place stands on its entry from the start of SCAN. -/
theorem test_load_at_start : (match exec (.powerOn 0 ⟨31, 32, true, 0⟩)
      { State.reset with dirFlash := [(0, .article 12)], lockFlash := [(0, .mode .pin)] } with
    | .next u => u.phase = .scan && (u.entry 0).article = some 12 && u.dir.storedMode = .pin
    | _ => false) = true := by decide +kernel
/-- R203: RESET_N falls without a supply: the power-on that follows loads nothing, and SCAN begins at the
rise, with the straps sampled then. -/
theorem test_reset_held_through_power_on : (match exec (.resetNFall 0)
      { State.reset with power := .off, dirFlash := [(0, .article 12)] } with
    | .next s => match exec (.powerOn 1 Straps.low) s with
      | .next u => match exec (.resetNRise 2 ⟨31, 32, true, 0⟩) u with
        | .next v => u.power = .held && (u.entry 0).article.isNone && v.power = .on && v.straps.stn = 31
            && (v.entry 0).article = some 12
        | _ => false
      | _ => false
    | _ => false) = true := by decide +kernel
/-- R180: the words of READ_ENTRY for slot 326 clocked in, and 3 bits after a fall of FSEL_N in between. -/
theorem test_clocked_words : (PortClock.idle.run
      ((.selectFall :: clocked [true, false, true]) ++ .selectFall :: clocked (bitsOf [0x21, 0x02, 0x01, 0x46]))).command
        0 .selectRise = some (.transactionEnd 0 32 [0x21, 0x02, 0x01, 0x46]) := by decide +kernel
/-- R180, R189: the empty form from its result length on, most significant bit first. -/
theorem test_empty_form_bits :
    let s := { run0 with fselLow := true, feed := { run0.feed with txn := some .empty } }
    (List.range 24).map (fun n => s.fdoBit (16 + n)) = (bitsOf [0x02, 0x40, 0xFF]).map some := by decide +kernel

/-! ### Witnesses: states and operands that meet the hypotheses of the statements, clause by clause -/

theorem run0_inRun : run0.inRun := And.intro rfl rfl
theorem two_roles : two.rolesSound :=
  ⟨by rintro (_ | _) <;> decide +kernel, by decide +kernel, by rintro (_ | _) <;> decide +kernel⟩
theorem two_canReceive : (hearing two).canReceive := by
  unfold State.canReceive; decide +kernel

/-- A station with bytes in flash and a command in front. -/
def front : State :=
  { two with mem := [(5, 0), (4096, 1)], pending := [.priceFrame 2000 7 411 false [rec7]] }

theorem front_canonical : front.canonical := by unfold State.canonical; decide +kernel

theorem witness_StepRunsTheFrontCommand :
    front.pending = .priceFrame 2000 7 411 false [rec7] :: [] ∧ State.reset.pending = [] := ⟨rfl, rfl⟩
/-- Marks at 1 and at T, the record of T in the hold queue. -/
def marked : State :=
  { front with bankA := { nextBank 9 with marks := [(1, .stored), (9, .held)] }, holdQueue := [⟨.a, 9, rec7⟩] }
theorem witness_EveryStepKeepsTheTablesCanonical :
    marked.canonical ∧ marked.rolesSound ∧ marked.receiptsSound ∧ ∃ u, step marked = .next u :=
  ⟨by unfold State.canonical; decide +kernel,
    ⟨by rintro (_ | _) <;> decide +kernel, by decide +kernel, by rintro (_ | _) <;> decide +kernel⟩,
    ⟨by rintro (_ | _) <;> decide +kernel, by unfold State.numberOf; decide +kernel, by intro i b n r h; cases h⟩, _, rfl⟩
theorem witness_EveryStepKeepsTheBounds :
    front.bounded ∧ front.feed.bounded ∧ front.counters.bounded ∧ ∃ u, step front = .next u :=
  ⟨by unfold State.bounded; decide +kernel, by unfold Feed.bounded; decide +kernel,
    by unfold Counters.bounded; decide +kernel, _, rfl⟩
theorem witness_EveryStepKeepsTheBankRoles : front.rolesSound ∧ ∃ u, step front = .next u :=
  ⟨two_roles, _, rfl⟩
theorem front_work : front.workSound := by unfold State.workSound; decide +kernel
theorem witness_EveryStepKeepsTheWorkSound : front.canonical ∧ front.workSound ∧ ∃ u, step front = .next u :=
  ⟨front_canonical, front_work, _, rfl⟩
theorem witness_EachBlockChangesOnlyByItsCommands :
    let c := Instr.isolationTimerExpiry 0
    (∃ u, exec c two = .next u) ∧ c.storesBank = false ∧ c.storesDirectory = false ∧ c.samplesStraps = false
      ∧ c.startsUp = false ∧ c.movesBatches = false ∧ c.feeds = false ∧ c.movesFlip = false :=
  ⟨⟨_, rfl⟩, rfl, rfl, rfl, rfl, rfl, rfl, rfl⟩
/-- Markdowns of the lowest and highest price and percent, one void and one not; offers that save and
that do not; unit prices below 1, in range and above 999,999. -/
theorem witness_FaceFollowsTheStages :
    (compose (markdownOf 1 90 .whole none)).markdownVoid = true
      ∧ (compose (markdownOf 9999999 1 .end99 none)).kind = .markdown
      ∧ (compose ⟨1, 1, 0, .multi, 1, none, none, some (9, 8), none⟩).multiVoid = false
      ∧ (compose ⟨1, 1, 0, .multi, 1, none, none, some (9, 9), none⟩).multiVoid = true
      ∧ (compose ⟨1, 1, 0, .regular, 1, none, none, none, some ⟨65535, 1, .perPiece⟩⟩).unitPrice = .value 1
      ∧ (compose ⟨1, 1, 0, .regular, 999999, none, none, none, some ⟨1, 1, .perPiece⟩⟩).unitPrice = .value 999999
      ∧ (compose ⟨1, 1, 0, .regular, 1000000, none, none, none, some ⟨1, 1, .perPiece⟩⟩).unitOver = true := by
  decide +kernel
theorem witness_EveryComposedFaceShowsASoundPrice : ∃ r, judgeRecord rec7 = .ok r := ⟨_, test_record_fields⟩
theorem witness_LabelTakesEveryComposedPage : (Label.mk 1 none none none .showing).state = .showing := rfl
theorem witness_EverySentFrameIsReceivedAsSent :
    stationFits 1 = true ∧ stationFits 254 = true ∧ frameFits (.opening 1 1 true) = true
      ∧ frameFits (.opening 1 32767 false) = true ∧ frameFits (.price 411 true [rec7]) = true
      ∧ frameFits (.digest (digestNow two)) = true ∧ frameFits (.want 1 [(0, 0), (32706, 32767)]) = true
      ∧ frameFits (.stop 1) = true ∧ frameFits (.flip 1 true) = true ∧ frameFits (.claim 254) = true
      ∧ frameFits (.yield 1) = true := by decide +kernel
/-- With a program in service. -/
def serving0 : State :=
  { two with flash := { two.flash with queue := [.record .a 411 7 rec7], doneAt := some 1080 } }
/-- With a program in service and the erase of its sector suspended. -/
def cut0 : State :=
  { serving0 with flash := { serving0.flash with erase := some ⟨.sector .a 0, .suspended 5⟩ } }
/-- R203, R186: FRDY is undriven without the supply, low while RESET_N is low, high in RUN until the fourth
transaction fills the buffer. -/
theorem test_frdy_levels :
    let full := { run0 with feed := { run0.feed with buffer := List.replicate 4 ⟨[0x36, 0], .wellFormed⟩ } }
    run0.frdy = some true ∧ full.frdy = some false ∧ { run0 with phase := .listen }.frdy = some false
      ∧ (match exec (.resetNFall 1) run0 with | .next u => decide (u.frdy = some false) | _ => false) = true
      ∧ (match exec (.powerLoss 1) run0 with | .next u => decide (u.frdy = none) | _ => false) = true := by decide +kernel
theorem witness_PowerAndResetStartAndStopTheStation :
    two.flash.doneAt = none ∧ two.flash.erase = none ∧ { two with power := .held }.power = .held
      ∧ two.resetLow = false ∧ { two with resetLow := true }.resetLow = true ∧ two.power ≠ .held
      ∧ { two with power := .off }.power ≠ .on
      ∧ two.power = .on ∧ two.canonical ∧ cut0.power = .on ∧ cut0.canonical
      ∧ { two with power := .off }.power = .off :=
  ⟨rfl, rfl, rfl, rfl, rfl, by decide, by decide, rfl, by unfold State.canonical; decide +kernel, rfl, by unfold State.canonical; decide +kernel, rfl⟩
theorem witness_RestartKeepsTheSessionLockAndFinishesTheProgram :
    let s := withHead .restart [] serving0
    let c := withHead .restart [] cut0
    s.power = .on ∧ s.feed.buffer = ⟨[0x3F, 0], .wellFormed⟩ :: [] ∧ feedCommandOf 0x3F = some .restart
      ∧ s.flash.erase = none ∧ s.canonical ∧ c.power = .on ∧ c.feed.buffer = ⟨[0x3F, 0], .wellFormed⟩ :: []
      ∧ c.flash.erase ≠ none ∧ c.canonical :=
  ⟨rfl, by decide +kernel, by decide +kernel, rfl, by unfold State.canonical; decide +kernel, rfl, by decide +kernel,
    by decide +kernel, by unfold State.canonical; decide +kernel⟩
/-- Bank A LIVE with batch 410, bank B NEXT with batch 411, record 7 good and slots 6 and 128 damaged. -/
def scanning : State :=
  { State.reset with
    dirFlash := [(0, .article 12), (1, .damaged), (255, .article 13), (256, .article 14)]
    mem := programBytes (programBytes (programBytes (programBytes (programBytes []
      0 (headerBytes 410 3 true)) (slotAddr .b 0) (headerBytes 411 9 false)) (slotAddr .b 6) [0]) (slotAddr .b 7) rec7)
      (slotAddr .b 128) [0] }
theorem witness_ScanRebuildsFromFlashAndBeginsListen :
    scanning.power = .on ∧ scanning.phase = .scan ∧ scanning.canonical
      ∧ headerClaims (readSlot scanning.mem .a 0) .live ∧ headerClaims (readSlot scanning.mem .b 0) .next
      ∧ newer (headerBatch (readSlot scanning.mem .b 0)) (headerBatch (readSlot scanning.mem .a 0)) = true
      ∧ countRowEnds (readSlot scanning.mem .b 0) 0 ∧ slotGood scanning.mem .b 411 7
      ∧ slotDamaged scanning.mem .b 411 6 ∧ slotDamaged scanning.mem .b 411 128 ∧ slotErased scanning.mem .b 32767
      ∧ ¬headerAgrees (readSlot [] .a 0) := by
  refine ⟨rfl, rfl, by unfold State.canonical; decide +kernel, ?_, ?_, by decide +kernel, ?_, ?_, ?_, ?_, ?_, ?_⟩ <;>
    simp only [headerClaims, headerAgrees, countRowEnds, slotGood, slotDamaged, slotErased] <;> decide +kernel
def listening : State := { two with phase := .listen, listenUntil := some 1000 }
theorem witness_ListenEndBeginsRun :
    listening.power = .on ∧ listening.phase = .listen ∧ expired listening.listenUntil (listening.at 0) = true
      ∧ listening.fast = true ∧ listening.adopt.trigger = none
      ∧ { listening with bankA := Bank.blank }.fast = false
      ∧ { listening with adopt := { listening.adopt with trigger := some 32 } }.adopt.trigger = some 32 := by
  decide +kernel
theorem witness_FetchChoosesTheOldestResult :
    let s := { run0 with fselLow := true, feed := { run0.feed with txn := some .nothing } }
    run0.power = .on ∧ run0.feed.txn = none ∧ s.power = .on ∧ s.feed.txn = some .nothing ∧ run0.fselLow = false
      ∧ s.fselLow = true ∧ { s with feed := { s.feed with txn := some .oldest } }.feed.txn = some .oldest
      ∧ s.fdo 0 = some 0 ∧ run0.fdo 0 = none := by
  decide +kernel
/-- Two results, `n` transactions waiting, the oldest result being sent. -/
def sending (n : Nat) : State :=
  { run0 with fselLow := true, feed := { run0.feed with
      txn := some .oldest, results := [⟨0x30, .done, []⟩, ⟨0x31, .done, []⟩]
      buffer := List.replicate n ⟨[0x20, 0], .wellFormed⟩ } }
/-- A whole FETCH clocks 5 bytes here; 4 do not release the result; 3 bits are a part of a byte. -/
theorem witness_TransactionEndSettlesTheTransaction :
    (sending 3).power = .on ∧ (sending 3).feed.txn = some .oldest ∧ 3 % 8 ≠ 0 ∧ byteAt [0x40, 0, 0, 0, 0] 0 = 0x40
      ∧ (sending 3).feed.results = ⟨0x30, .done, []⟩ :: [⟨0x31, .done, []⟩]
      ∧ 3 + (Result.mk 0x30 .done []).length = 40 / 8 ∧ 32 / 8 < 3 + (Result.mk 0x30 .done []).length
      ∧ byteAt [0x20, 0] 0 ≠ 0x40 ∧ (sending 3).feed.buffer.length < 4 ∧ 4 ≤ (sending 4).feed.buffer.length
      ∧ ([] : List Bool).length < 8 ∧ (List.replicate 7 true).length < 8 := by
  decide +kernel
theorem witness_ReadsAndUnknownHeadsPlaceTheirResults :
    (withHead .readStatus [] run0).headIs .readStatus [] []
      ∧ (withHead .readEntry [0x01, 0xFF] run0).headIs .readEntry [0x01, 0xFF] []
      ∧ (withHead .readEntry [0x02, 0x00] run0).headIs .readEntry [0x02, 0x00] []
      ∧ field [0x01, 0xFF] 0 2 = 511 ∧ field [0x02, 0x00] 0 2 = 512
      ∧ (withHead .readCounters [1] run0).headIs .readCounters [1] []
      ∧ { run0 with feed := { run0.feed with buffer := [⟨[0x41], .unknownCommand⟩] } }.feed.buffer
          = ⟨[0x41], .unknownCommand⟩ :: [] :=
  ⟨run0_headIs _ _, run0_headIs _ _, run0_headIs _ _, by decide, by decide, run0_headIs _ _, rfl⟩
theorem witness_LatchAndAlertCommandsChangeWhatTheyName :
    (withHead .writeEnable [] run0).headIs .writeEnable [] []
      ∧ (withHead .writeDisable [] run0).headIs .writeDisable [] []
      ∧ (withHead .clearAlert [0xFF] run0).headIs .clearAlert [0xFF] []
      ∧ (withHead .clearAlert [0] run0).headIs .clearAlert [0] [] :=
  ⟨run0_headIs _ _, run0_headIs _ _, run0_headIs _ _, run0_headIs _ _⟩

/-- A station whose write-enable latch is set. -/
def enabled0 : State := { two with dir := { two.dir with wel := true } }
/-- The body of an ASSIGN_POSITION of article 12 to rail 3, position 63. -/
def assignBody : List Byte := [3, 63, 0, 0, 0, 0, 0, 0, 0x12]

theorem witness_DirectoryWritesAreCheckedInOrder :
    (withHead .assignPosition assignBody enabled0).inRun ∧ (withHead .assignPosition assignBody enabled0).canonical
      ∧ (withHead .assignPosition assignBody enabled0).headIs .assignPosition assignBody []
      ∧ (assignAct assignBody).isSome = true ∧ (clearAct [4, 0]).isNone = true ∧ (lockAct [4]).isNone = true
      ∧ run0.dir.wel = false ∧ lockAllows .pin false = false :=
  ⟨And.intro rfl rfl, by unfold State.canonical; decide +kernel, withHead_headIs _ _ _ rfl (by decide),
    by decide +kernel, by decide +kernel, by decide +kernel, rfl, rfl⟩
theorem witness_AssignAndClearChangeOneEntry :
    let s := withHead .assignPosition assignBody enabled0
    let w := withEntry 255 { entry12 .swapping with clearWaiting := true } s
    let h := withEntry 255 { entry12 .current with markdownVoid := true } s
    let c := withHead .clearPosition [0, 0] (withEntry 0 (entry12 .staged) enabled0)
    s.inRun ∧ s.canonical ∧ s.headIs .assignPosition assignBody [] ∧ s.dir.wel = true
      ∧ lockAllows s.lockMode false = true ∧ homeSlot 3 63 = some 255
      ∧ articleOf (slice assignBody 2 7) = some 12 ∧ s.noneToRestage ∧ (s.entry 255).article ≠ some 12
      ∧ w.noneToRestage ∧ (w.entry 255).article = some 12 ∧ (w.entry 255).clearWaiting = true
      ∧ c.inRun ∧ c.canonical ∧ c.noneToRestage ∧ c.headIs .clearPosition [0, 0] [] ∧ homeSlot 0 0 = some 0
      ∧ (c.entry 0).state ≠ .swapping ∧ (c.entry 0).state ≠ .vacant
      ∧ ((withEntry 0 (entry12 .swapping) enabled0).entry 0).state = .swapping ∧ (s.entry 255).state = .vacant
      ∧ h.noneToRestage ∧ (h.entry 255).article = some 12 ∧ (h.entry 255).clearWaiting = false :=
  ⟨And.intro rfl rfl, by unfold State.canonical; decide +kernel, withHead_headIs _ _ _ rfl (by decide), rfl, rfl,
    by decide, by decide +kernel, by unfold State.noneToRestage; decide +kernel, by decide +kernel,
    by unfold State.noneToRestage; decide +kernel, by decide +kernel, by decide +kernel,
    And.intro rfl rfl, by unfold State.canonical; decide +kernel, by unfold State.noneToRestage; decide +kernel,
    withHead_headIs _ _ _ rfl (by decide), by decide, by decide +kernel, by decide +kernel, by decide +kernel,
    by decide +kernel, by unfold State.noneToRestage; decide +kernel, by decide +kernel, by decide +kernel⟩
/-- R107: the position already holds the article; its face flags stay (log entry 63). -/
theorem test_reassign_keeps_face_flags :
    (match exec (.assignPosition 1 true) (withEntry 255 { entry12 .current with markdownVoid := true, missed := true }
        (withHead .assignPosition assignBody enabled0)) with
    | .next u => decide (u.entry 255 = { entry12 .current with markdownVoid := true })
    | _ => false) = true := by decide +kernel
theorem witness_SetLockTakesTheModeItNames :
    let s := withHead .setLock [2] enabled0
    s.inRun ∧ s.headIs .setLock [2] [] ∧ s.dir.wel = true ∧ lockAllows s.lockMode false = true
      ∧ lockModeOf 0 = some .open ∧ lockModeOf 1 = some .pin ∧ lockModeOf 2 = some .session
      ∧ lockModeOf 3 = some .permanent :=
  ⟨And.intro rfl rfl, withHead_headIs _ _ _ rfl (by decide), rfl, rfl, rfl, rfl, rfl, rfl⟩

/-- A granted place. -/
def granted : State := { two with trunk := { two.trunk with feedGrant := true } }

theorem granted_ready (c : FeedCommand) (body : List Byte) :
    let s := withHead c body granted
    s.inRun ∧ s.notYielding ∧ s.rolesSound ∧ s.listenOnly = false ∧ s.trunk.feedGrant = true
      ∧ s.headIs c body [] :=
  ⟨And.intro rfl rfl, fun h => HolderState.noConfusion h, two_roles, rfl, rfl, withHead_headIs _ _ _ rfl (by decide)⟩
/-- Counts 0, 1, 32,767 and 32,768; batch 412 newer than both, 411 the next one, 409 old. -/
theorem witness_OpenBatchOpensMergesOrRefuses :
    field [0x01, 0x9C, 0x00, 0x00] 2 2 = 0 ∧ field [0x01, 0x9C, 0x00, 0x01] 2 2 = 1
      ∧ field [0x01, 0x9C, 0x7F, 0xFF] 2 2 = 32767 ∧ field [0x01, 0x9C, 0x80, 0x00] 2 2 = 32768
      ∧ granted.newerThanBoth 412 = true ∧ batchAt [0x01, 0x9C] 0 = 412
      ∧ granted.bankIn .next = some .a ∧ (granted.bank .a).batch = some 411
      ∧ granted.newerThanBoth 409 = false ∧ granted.nextBatch ≠ some 409 := by decide +kernel
theorem witness_PutRecordsJudgesEachRecord :
    granted.nextBatch ≠ some 410 ∧ granted.bankIn .next = some .a ∧ (granted.bank .a).batch = some 411
      ∧ recordFault 411 9 rec7 = 0 ∧ recordFault 411 6 rec7 = 4 ∧ recordFault 411 7 rec7 = 0
      ∧ recordsOf 1 rec7 = [rec7] ∧ granted.holdQueue.length + [rec7, rec7].length ≤ 64
      ∧ granted.unstored.length + [rec7, rec7].length ≤ 16 ∧ (granted.bank .a).duplicates ≤ 65535 := by decide +kernel
theorem witness_CallFlipStartsTheCallPeriod : granted.nextBatch = some 411 ∧ granted.nextBatch ≠ some 410 := by
  decide +kernel
theorem witness_StopBatchDropsTheNextBatch :
    granted.bankIn .next = some .a ∧ (granted.bank .a).batch = some 411 ∧ granted.nextBatch ≠ some 410
      ∧ granted.receiptsSound :=
  ⟨by decide +kernel, by decide +kernel, by decide +kernel,
    by rintro (_ | _) <;> decide +kernel, fun _ h => (List.not_mem_nil h).elim, fun _ _ _ _ h => (List.not_mem_nil h).elim⟩
theorem witness_HeadsAreRefusedOrWait :
    mute0.notYielding ∧ feedCommandOf 0x13 = some .stopBatch ∧ mute0.listenOnly = true ∧ mute0.phase = .run
      ∧ isBatchCommand .stopBatch = true ∧ needsRun .setLock = true ∧ scanning.phase ≠ .run
      ∧ run0.listenOnly = false ∧ run0.trunk.feedGrant = false
      ∧ 4 ≤ (List.replicate 4 (Result.mk 0 .done [])).length :=
  ⟨by unfold State.notYielding; decide +kernel, by decide +kernel, by decide +kernel, rfl, rfl, rfl,
    by decide +kernel, by decide +kernel, rfl, by decide⟩
theorem witness_EveryAcceptedFrameIsHeard :
    (hearing two).canReceive ∧ stationFits 31 = true ∧ (31 : Byte) = (hearing two).station
      ∧ stationFits 254 = true ∧ frameFits (.price 411 true [rec7]) = true
      ∧ { hearing two with trunk := { (hearing two).trunk with isolated := true } }.trunk.isolated = true :=
  ⟨two_canReceive, by decide +kernel, by decide +kernel, by decide +kernel, by decide +kernel, rfl⟩
theorem witness_DiscardedFramesAreOnlyCounted :
    (hearing two).canReceive ∧ judgeReception false [0x55] = .notDelimited
      ∧ judgeReception true [0xD5] = .broken ∧ judgeReception false [0xD5, 5, 7] = .truncated
      ∧ judgeReception false ((frameWire 7 (.stop 414)).set 5 0) = .badCrc
      ∧ judgeReception false (frameWire 7 (.claim 0)) = .malformed :=
  ⟨two_canReceive, by decide +kernel, by decide +kernel, by decide +kernel, by decide +kernel, by decide +kernel⟩
theorem witness_OpenAndStopFramesMoveTheNextBatch :
    (hearing two).canReceive ∧ two.rolesSound ∧ stationFits 7 = true
      ∧ frameFits (.opening 412 1 false) = true ∧ two.newerThanBoth 412 = true
      ∧ two.bankIn .next = some .a ∧ (two.bank .a).batch = some 411
      ∧ two.newerThanBoth 410 = false ∧ two.nextBatch ≠ some 410 :=
  ⟨two_canReceive, two_roles, by decide +kernel, by decide +kernel, by decide +kernel, by decide +kernel,
    by decide +kernel, by decide +kernel, by decide +kernel⟩
/-- Record 7 on a bank of 6 or 7 records, held already, with its sector to be erased, with its slot
spoiled, and with a full hold queue. -/
theorem witness_PriceFrameTakesTheRecord :
    (hearing two).canReceive ∧ rec7.length = 32 ∧ recValid rec7 = true ∧ recBatch rec7 = 411 ∧ recSeq rec7 = 7
      ∧ two.bankOf 411 = some .a ∧ (nextBank 6).count < 7 ∧ 7 ≤ (nextBank 7).count
      ∧ ((nextBank 7).setMark 7 .held).mark 7 = some .held ∧ (nextBank 7).mark 7 = none
      ∧ sectorOf 7 ∈ { nextBank 7 with eraseList := [0] }.eraseList ∧ sectorOf 7 ∉ (nextBank 7).eraseList
      ∧ 7 ∈ { nextBank 7 with spoiled := [7] }.spoiled ∧ 7 ∉ (nextBank 7).spoiled
      ∧ 64 ≤ (List.replicate 64 (Kept.mk .a 1 rec7)).length :=
  ⟨two_canReceive, by decide +kernel, by decide +kernel, by decide +kernel, by decide +kernel, by decide +kernel,
    by decide, by decide, by decide +kernel, by decide +kernel, by decide +kernel, by decide +kernel,
    by decide +kernel, by decide +kernel, by decide⟩
/-- A DIGEST naming next batch 411 with 9 records, `n` held. -/
def digest411 (n : BitVec 16) : Digest :=
  ⟨none, .none, 0, 0, some 411, 9, n, some 2, .gathering, 0, 0, 0, false, false⟩
/-- A peer with live batch 410, of 3 records, 2 of them held, and no next batch. -/
def digest410 : Digest :=
  ⟨some 410, .settled, 3, 2, none, 0, 0, none, .none, 0, 0, 0, false, false⟩
/-- Next batch 411 with the first of its 2 records held, or both. -/
def gathered (both : Bool) : State :=
  { two with bankA := { nextBank 2 with marks := if both then [(1, .stored), (2, .stored)] else [(1, .stored)] } }
theorem gathered_roles (both : Bool) : (gathered both).rolesSound := by
  cases both <;> exact ⟨by rintro (_ | _) <;> decide +kernel, by decide +kernel, by rintro (_ | _) <;> decide +kernel⟩
/-- One record held here: the peer holds 1 of 9 or 2 of 9, or the one record that is all of its T. -/
theorem witness_DigestFrameFillsAWantSlot :
    (hearing run0).canReceive ∧ stationFits 7 = true ∧ frameFits (.digest (digest411 2)) = true
      ∧ (digest411 2).next = some 411 ∧ run0.bankIn .next = none ∧ run0.bankIn .live = none
      ∧ (∀ k : Fin 8, run0.slot k = none)
      ∧ (∀ both, (hearing (gathered both)).canReceive ∧ (gathered both).rolesSound
        ∧ (gathered both).bankIn .next = some .a ∧ ((gathered both).bank .a).batch = some 411
        ∧ ∀ k : Fin 8, (gathered both).slot k = none)
      ∧ ({ digest411 2 with nextCount := 2 } : Digest).nextCount.toNat ≤ ((gathered true).bank .a).count
      ∧ ((gathered true).bank .a).held = ((gathered true).bank .a).count
      ∧ ((gathered false).bank .a).held ≠ ((gathered false).bank .a).count
      ∧ ((gathered false).bank .a).missing ≠ [] ∧ ((gathered false).bank .a).held < 2
      ∧ ({ digest411 1 with nextCount := 1 } : Digest).nextHeld.toNat = ((gathered false).bank .a).held
      ∧ ({ digest411 1 with nextCount := 2 } : Digest).nextHeld ≠ 2
      ∧ ((gathered true).bank .a).count < (digest411 2).nextCount.toNat
      ∧ (digest410.next ≠ some 411 ∧ frameFits (.digest { digest410 with live := some 411 }) = true
        ∧ ((gathered false).bank .a).held < digest410.liveHeld.toNat
        ∧ ((gathered false).bank .a).count < digest410.liveCount.toNat)
      ∧ (gathered false).bankIn .live = some .b ∧ ((gathered false).bank .b).batch = some 410
      ∧ (gathered false).nextBatch = some 411 ∧ digest410.next ≠ some 411 ∧ digest410.live = some 410
      ∧ frameFits (.digest digest410) = true ∧ ((gathered false).bank .b).held ≠ ((gathered false).bank .b).count
      ∧ ((gathered false).bank .b).missing ≠ [] ∧ ((gathered false).bank .b).held < digest410.liveHeld.toNat
      ∧ ((gathered false).bank .b).held = ({ digest410 with liveHeld := 0 } : Digest).liveHeld.toNat :=
  by
    refine ⟨by unfold State.canReceive; decide +kernel, ?_, ?_, rfl, ?_, ?_, ?_, fun both => ?_, ?_⟩
    case refine_6 =>
      refine ⟨?_, gathered_roles both, ?_, ?_, ?_⟩
      · cases both <;> (unfold State.canReceive; decide +kernel)
      all_goals cases both <;> decide +kernel
    all_goals decide +kernel
theorem witness_WantFrameFillsTheAnswerList :
    (hearing two).canReceive ∧ stationFits 7 = true ∧ frameFits (.want 411 [(0, 0), (7, 7)]) = true
      ∧ two.bankOf 411 = some .a ∧ answerList? two 411 = none ∧ answerRun? two 411 = none :=
  ⟨two_canReceive, by decide +kernel, by decide +kernel, by decide +kernel, rfl, rfl⟩
/-- An entry pending on the live batch makes the live phase SWAPPING. -/
def swapping0 : State :=
  withEntry 0 { entry12 .swapping with pending := some ⟨410, 1, none⟩ } two
theorem witness_FlipFrameStartsOrFeedsTheHold :
    (hearing two).canReceive ∧ stationFits 7 = true ∧ two.nextBatch = some 411 ∧ two.livePhase ≠ .swapping
      ∧ two.flip.hold = none ∧ swapping0.livePhase = .swapping ∧ two.nextBatch ≠ some 410 :=
  ⟨two_canReceive, by decide +kernel, by decide +kernel, by decide +kernel, rfl, by decide +kernel, by decide +kernel⟩
theorem witness_ClaimAndYieldReachTheHomeSide :
    (hearing two).canReceive ∧ stationFits 32 = true ∧ stationFits 31 = true ∧ (31 : Byte) = two.station
      ∧ (32 : Byte) ≠ two.station
      ∧ { two with adopt := { two.adopt with waitUntil := some 5 } }.adopt.waitUntil.isSome = true
      ∧ listening.phase = .listen ∧ two.adopt.waitUntil = none
      ∧ frameFits (.digest { digest410 with heldPartner := 31 }) = true :=
  ⟨two_canReceive, by decide +kernel, by decide +kernel, rfl, by decide, rfl, rfl, rfl, by decide +kernel⟩
/-- A frame in transmission. -/
def sendingFrame (f : QueuedFrame) : State :=
  { two with trunk := { two.trunk with line := .busy, transmitting := true, queue := [f] } }
/-- A head with 2 slots left, counting on a line IDLE since 1,000; its count has run down at 1,512. -/
def counting0 : State :=
  { two with trunk := { two.trunk with
      line := .idle 1000, counting := some 1000
      queue := [⟨.stop 411, .feed, 16, 0, some 2⟩] } }
theorem witness_LineStateMovesTheHeadToTransmission :
    two.power = .on ∧ two.phase ≠ .scan ∧ two.trunk.line = .quiet ∧ two.trunk.counting = none
      ∧ counting0.inRun ∧ counting0.trunk.line = .idle 1000 ∧ counting0.trunk.counting = some 1000
      ∧ 2 ≤ (max counting0.now 1512 - 1000) / 256 - (1000 - 1000) / 256
      ∧ ¬ 2 ≤ (max counting0.now 1511 - 1000) / 256 - (1000 - 1000) / 256
      ∧ (sendingFrame (queued (.stop 411) .feed)).drives 0 ≠ .undriven
      ∧ (sendingFrame (queued (.stop 411) .feed)).drives 63 ≠ .undriven ∧ two.trunk.transmitting = false :=
  ⟨rfl, by decide +kernel, rfl, rfl, And.intro rfl rfl, rfl, rfl, by decide, by decide, by decide +kernel,
    by decide +kernel, rfl⟩
theorem witness_TransmissionsEndInCollisionOrCompletion :
    let f := sendingFrame (queued (.stop 411) .feed)
    let w := (sendingFrame (queued (.want 411 [(1, 1)]) (.want 0))).setSlot 0 (some ⟨411, [1], 1, .sending⟩)
    let c := sendingFrame { queued (.claim 32) .claim with attempts := 11 }
    f.power = .on ∧ f.notYielding ∧ f.trunk.transmitting = true ∧ f.trunk.queue = queued (.stop 411) .feed :: []
      ∧ (queued (.stop 411) .feed).attempts < 11 ∧ 11 ≤ { queued (.stop 411) .feed with attempts := 11 }.attempts
      ∧ w.trunk.queue = queued (.want 411 [(1, 1)]) (.want 0) :: [] ∧ w.slot 0 = some ⟨411, [1], 1, .sending⟩
      ∧ (w.setSlot 0 (some ⟨411, [], 1, .sending⟩)).slot 0 = some ⟨411, [], 1, .sending⟩
      ∧ c.trunk.queue.head?.map QueuedFrame.tag = some .claim ∧ c.listenOnly = false ∧ placesTaken c ≤ 16
      ∧ c.trunk.waiters = [] ∧ { two with adopt := { two.adopt with holder := .claiming } }.adopt.holder = .claiming :=
  ⟨rfl, by unfold State.notYielding; decide +kernel, rfl, rfl, by decide, by decide, rfl, by decide +kernel,
    by decide +kernel, rfl, by decide +kernel, by decide +kernel, rfl, rfl⟩
/-- Own frames heard: an OPEN, a PRICE with record 7 and FLIPs, with answers, a header slot, a hold, an echo. -/
theorem witness_TransmissionsEndInCollisionOrCompletion_own :
    let own := fun f : Frame => { sendingFrame (queued f .feed) with
      repair := { two.repair with answers := [⟨411, [7, 8], true, 2000⟩], runs := [⟨411, [7], false⟩] } }
    let p := own (.price 411 false [rec7])
    let o := (own (.opening 411 9 false)).setSlot 0 (some ⟨411, [0], 1, .delaying 2000⟩)
    let h := { own (.flip 411 false) with flip := ⟨some ⟨3001000, 751000⟩, none, some ⟨410, 60001000, 401000⟩⟩ }
    p.power = .on ∧ p.notYielding ∧ p.trunk.transmitting = true
      ∧ p.trunk.queue = queued (.price 411 false [rec7]) .feed :: []
      ∧ answerList? p 411 = some ⟨411, [7, 8], true, 2000⟩ ∧ answerRun? p 411 = some ⟨411, [7], false⟩
      ∧ recValid rec7 = true ∧ recBatch rec7 = 411 ∧ recSeq rec7 = 7 ∧ p.phase = .run ∧ p.nextBatch = some 411
      ∧ nextIncomplete p = true ∧ o.notYielding ∧ o.trunk.queue = queued (.opening 411 9 false) .feed :: []
      ∧ o.slot 0 = some ⟨411, [0], 1, .delaying 2000⟩ ∧ (∀ j, (queued (.opening 411 9 false) .feed).tag ≠ .want j)
      ∧ h.notYielding ∧ h.nextBatch = some 411 ∧ h.livePhase ≠ .swapping ∧ h.flip.hold = some ⟨3001000, 751000⟩
      ∧ swapping0.livePhase = .swapping ∧ h.nextBatch ≠ some 410 ∧ h.liveBatch = some 410
      ∧ h.flip.echo = some ⟨410, 60001000, 401000⟩ := by
  simp only [State.notYielding]; decide +kernel
theorem witness_FreePlaceGoesToTheFirstWaiter :
    let s := { two with trunk := { two.trunk with waiters := [.feed, .claim] } }
    let a := { two with
      bankA := { nextBank 9 with marks := [(7, .held), (8, .stored)] }, holdQueue := [⟨.a, 7, rec7⟩]
      trunk := { two.trunk with waiters := [.answer 411] }, repair := { two.repair with runs := [⟨411, [7], false⟩] }
      flip := { two.flip with echo := some ⟨410, 60001000, 401000⟩ } }
    let b := { a with repair := { a.repair with runs := [⟨411, [7, 8], false⟩] } }
    s.power = .on ∧ s.trunk.waiters = .feed :: [.claim] ∧ placesTaken s < 16
      ∧ a.trunk.waiters = .answer 411 :: [] ∧ placesTaken a < 16 ∧ a.flip.echo = some ⟨410, 60001000, 401000⟩
      ∧ answerRun? a 411 = some ⟨411, [7], false⟩ ∧ a.bankOf 411 = some .a ∧ (a.bank .a).mark 7 = some .held
      ∧ a.record 411 7 = some rec7 ∧ answerRun? b 411 = some ⟨411, [7, 8], false⟩
      ∧ (b.bank .a).mark 8 = some .stored
      ∧ answerRun? { a with repair := { a.repair with runs := [⟨411, [7], true⟩] } } 411 = some ⟨411, [7], true⟩ := by
  decide +kernel
theorem witness_DigestAndIsolationTimersAct :
    let s := { two with trunk := { two.trunk with digestAt := some 1000, isolationAt := some 1000 } }
    s.inRun ∧ s.listenOnly = false ∧ s.trunk.transmitting = false ∧ expired s.trunk.digestAt (s.at 1000) = true
      ∧ expired s.trunk.isolationAt (s.at 1000) = true ∧ s.fast = true ∧ run0.fast = false
      ∧ (s.trunk.queue.any fun f => f.tag = .digest) = false ∧ placesTaken s + s.trunk.waiters.length < 16
      ∧ 16 ≤ placesTaken { s with trunk := { s.trunk with
          queue := List.replicate 15 (queued (.stop 411) .feed), waiters := [.claim] } } + [Producer.claim].length :=
  ⟨And.intro rfl rfl, by decide +kernel, rfl, by decide +kernel, by decide +kernel, by decide +kernel,
    by decide +kernel, by decide +kernel, by decide +kernel, by decide +kernel⟩
/-- A want slot at attempt 7 or 8. -/
def wantAt (n : Nat) (x : WantPhase) : State := two.setSlot 3 (some ⟨411, [1, 2], n, x⟩)
theorem witness_WantSlotTimersMoveTheSlot :
    let full := { two with trunk := { two.trunk with queue := List.replicate 16 (queued (.stop 411) .feed) } }
    (wantAt 1 (.delaying 1000)).slot 3 = some ⟨411, [1, 2], 1, .delaying 1000⟩
      ∧ (wantAt 8 (.waiting 1000)).slot 3 = some ⟨411, [1, 2], 8, .waiting 1000⟩
      ∧ (wantAt 7 (.waiting 1000)).slot 3 = some ⟨411, [1, 2], 7, .waiting 1000⟩
      ∧ two.listenOnly = false ∧ mute0.listenOnly = true ∧ placesTaken two < 16 ∧ two.trunk.waiters = []
      ∧ 16 ≤ placesTaken full ∧ { two with trunk := { two.trunk with waiters := [.claim] } }.trunk.waiters ≠ [] := by
  decide +kernel
theorem witness_TrailingGapAndAnswerTimersAct :
    let s := { two with repair := { two.repair with
      trailingAt := some 1000, answers := [⟨411, [7], true, 1000⟩] } }
    let h := { s with
      bankA := { nextBank 9 with marks := [(7, .held)] }, holdQueue := [⟨.a, 7, rec7⟩]
      repair := { s.repair with answers := [⟨411, [7], false, 1000⟩] } }
    let m := { h with bankA := { nextBank 9 with marks := [(7, .stored)] } }
    let r := { two with
      bankA := { nextBank 9 with marks := [(7, .held)] }, holdQueue := [⟨.a, 7, rec7⟩]
      repair := { two.repair with builds := [⟨411, [(7, none)]⟩] }
      flash := { two.flash with queue := [.read .answer 411 7], doneAt := some 1000 } }
    s.power = .on ∧ expired s.repair.trailingAt (s.at 1000) = true ∧ s.bankIn .next = some .a
      ∧ (s.bank .a).batch = some 411 ∧ (s.bank .a).missing ≠ [] ∧ (∀ k : Fin 8, s.slot k = none)
      ∧ answerList? s 411 = some ⟨411, [7], true, 1000⟩ ∧ answerRun? s 411 = none ∧ s.repair.builds = []
      ∧ s.bankOf 411 = some .a ∧ s.listenOnly = false ∧ placesTaken s < 16 ∧ s.trunk.waiters = []
      ∧ answerList? h 411 = some ⟨411, [7], false, 1000⟩ ∧ (h.bank .a).mark 7 = some .held
      ∧ h.record 411 7 = some rec7 ∧ (m.bank .a).mark 7 = some .stored
      ∧ r.notYielding ∧ r.flash.queue = .read .answer 411 7 :: [] ∧ serving r = true
      ∧ expired r.flash.doneAt (r.at 1000) = true ∧ r.flash.waiting = [] ∧ r.repair.builds = [⟨411, [(7, none)]⟩]
      ∧ r.record 411 7 = some rec7 := by
  unfold State.notYielding; decide +kernel
theorem witness_FinishedProgramIsInFlash :
    serving0.power = .on ∧ serving0.canonical ∧ serving0.flash.queue = .record .a 411 7 rec7 :: []
      ∧ serving serving0 = true ∧ expired serving0.flash.doneAt (serving0.at 1080) = true
      ∧ opBytes (.record .a 411 7 rec7) = some (224, rec7) ∧ opBytes (.place 0 12 false) = none :=
  ⟨rfl, by unfold State.canonical; decide +kernel, rfl, by decide +kernel, by decide +kernel, by decide +kernel, rfl⟩
/-- An erase that ends at 1,000. -/
def erasing0 (t : EraseTarget) (s : State) : State :=
  { s with flash := { s.flash with erase := some ⟨t, .running 1000⟩ } }
theorem witness_EraseIsSuspendedForRequests :
    let a := erasing0 (.sector .b 255) { two with
      bankA := { nextBank 9 with marks := [(7, .stored)] }
      repair := { two.repair with answers := [⟨411, [7], false, 1000⟩] } }
    let s := { two with flash := { two.flash with
      queue := [.mark .a true], erase := some ⟨.sector .b 255, .suspending 1001 1000⟩ } }
    a.power = .on ∧ a.flash.erase = some ⟨.sector .b 255, .running 1000⟩ ∧ a.flash.queue.length < 32
      ∧ a.flash.waiting = [] ∧ answerList? a 411 = some ⟨411, [7], false, 1000⟩ ∧ a.bankOf 411 = some .a
      ∧ (a.bank .a).mark 7 = some .stored ∧ a.listenOnly = false ∧ answerRun? a 411 = none ∧ a.repair.builds = []
      ∧ placesTaken a < 16 ∧ a.trunk.waiters = []
      ∧ s.power = .on ∧ s.flash.erase = some ⟨.sector .b 255, .suspending 1001 1000⟩
      ∧ s.flash.queue = .mark .a true :: [] ∧ s.flash.doneAt = none := by decide +kernel
theorem witness_CompletedErasesLeaveErasedSectors :
    (erasing0 (.sector .a 0) two).power = .on
      ∧ (erasing0 (.sector .a 0) two).flash.erase = some ⟨.sector .a 0, .running 1000⟩
      ∧ { two.bankA with header := some .waiting }.header = some .waiting
      ∧ two.bankA.header ≠ some .waiting ∧ two.holdQueue = [] ∧ two.flash.queue ++ two.flash.waiting = []
      ∧ ({ nextBank 9 with header := some .waiting }).ownsProgram (.mark .a true) = false
      ∧ (FlashOp.mark .a true).sectorIn .a = some 0 ∧ (nextBank 9).ownsProgram (.countPlace .a 1 12) = true
      ∧ sectorOf (Kept.mk .a 7 rec7).seq = 0
      ∧ (erasing0 .entries (withEntry 0 (entry12 .current) two)).flash.erase = some ⟨.entries, .running 1000⟩
      ∧ programList (withEntry 0 (entry12 .current) two) = [(0, 12)]
      ∧ two.dir.rewriteAgain = false ∧ two.dir.lockAgain = false
      ∧ (erasing0 .lock two).flash.erase = some ⟨.lock, .running 1000⟩ := by decide +kernel

/-- Rail 0 with a proving at session `n`. -/
def proving0 (n w : Nat) : State :=
  (two.setRail 0 { Rail.reset true with enabled := true, proving := some ⟨.unproven, n, w⟩ }).setActivity 0
    (.session 0 (.job .prove) 0 none)
theorem witness_ProvingGivesTheRailState :
    (proving0 0 0).power = .on ∧ (proving0 0 0).notYielding
      ∧ ((proving0 9 7).engine 0).activity = .session 0 (.job .prove) 0 none
      ∧ ((proving0 0 0).rail 0).proving = some ⟨.unproven, 0, 0⟩
      ∧ ((proving0 8 2).rail 0).proving = some ⟨.unproven, 8, 2⟩
      ∧ ((proving0 9 8).rail 0).proving = some ⟨.unproven, 9, 8⟩ ∧ (List.replicate 64 (0 : Byte)).length = 64 :=
  ⟨rfl, by unfold State.notYielding; decide +kernel, by decide +kernel, by decide +kernel, by decide +kernel,
    by decide +kernel, by decide +kernel⟩
def answeredJob : Job := { runningJob .census with answered := some ⟨.showing, some 410, none⟩ }
/-- An identity-due CENSUS job whose first STATUS was at 1,000. -/
def identityJob : Job :=
  { Job.make .census 0 (some 1000) with identityDue := true, firstStatus := some 1000 }
/-- A census under way at position 0 of rail `r`, whose job is `j`, over the entries of `s`. -/
def inquiring (r : Fin 8) (j : Job) (s : State) : State :=
  (withRail r .proven [j] s).setActivity (engineOf r) (.session r (.job .census) 0 none)
theorem inquiring_carries (r : Fin 8) (j : Job) (s : State) (hp : s.power = .on)
    (hj : Job.isFor .census 0 j = true) (hr : j.running = true) :
    (inquiring r j s).carries (engineOf r) .census r 0 j :=
  ⟨hp, ⟨none, by simp [inquiring, State.setActivity, State.engine, State.setEngine]⟩, rfl, by
    simp [inquiring, withRail, State.setActivity, State.setEngine, State.rail, State.setRail, Rail.job?, hj], hr⟩
def homeInquiry : State := inquiring 0 answeredJob (withEntry 0 (entry12 .current) two)
def crossInquiry : State := inquiring 4 answeredJob { two with adopt := { two.adopt with holder := .holding } }
def statusInquiry : State := inquiring 0 (runningJob .census) (withEntry 0 (entry12 .current) two)
theorem inquiries_sound :
    (homeInquiry.canonical ∧ homeInquiry.workSound ∧ homeInquiry.notYielding)
      ∧ (crossInquiry.canonical ∧ crossInquiry.workSound ∧ crossInquiry.notYielding)
      ∧ (statusInquiry.canonical ∧ statusInquiry.workSound ∧ statusInquiry.notYielding) := by
  refine ⟨⟨?_, ?_, ?_⟩, ⟨?_, ?_, ?_⟩, ⟨?_, ?_, ?_⟩⟩ <;>
    first
    | (unfold State.canonical; decide +kernel)
    | (unfold State.workSound; decide +kernel)
    | (unfold State.notYielding; decide +kernel)
theorem witness_InquiryDeliversItsReport :
    let w := withRail 0 .proven [identityJob] two
    homeInquiry.carries 0 .census 0 0 answeredJob
      ∧ answeredJob.answered = some ⟨.showing, some 410, none⟩ ∧ (homeInquiry.entry 0).clearWaiting = false
      ∧ identCode ⟨1, [0, 0, 0, 0, 0, 0, 0x13]⟩ ≠ (homeInquiry.entry 0).article
      ∧ identCode ⟨1, [0, 0, 0, 0, 0, 0, 0x12]⟩ = (homeInquiry.entry 0).article
      ∧ crossInquiry.carries 0 .census 4 0 answeredJob ∧ isCross 4 = true
      ∧ (crossInquiry.rail 4).enabled = true ∧ (crossInquiry.entry (slotOf 4 0)).article = none
      ∧ identCode ⟨1, noArticleBytes⟩ = none
      ∧ ((withEntry (slotOf 4 0) (entry12 .current) crossInquiry).entry (slotOf 4 0)).article.isSome = true
      ∧ statusInquiry.carries 0 .census 0 0 (runningJob .census)
      ∧ (runningJob .census).answered = none ∧ (runningJob .census).identityDue = false
      ∧ w.notYielding ∧ (w.rail 0).job? .census 0 = some identityJob ∧ identityJob.identityDue = true
      ∧ identityJob.running = false ∧ identityJob.answered = none ∧ identityJob.firstStatus = some 1000
      ∧ 1000 + 10000000 ≤ max w.now 10001000 ∧ ¬ 1000 + 10000000 ≤ max w.now 10000999 :=
  ⟨inquiring_carries 0 _ _ rfl (by decide) rfl, rfl, by decide +kernel, by decide +kernel, by decide +kernel,
    inquiring_carries 4 _ _ rfl (by decide) rfl, by decide, by decide +kernel, by decide +kernel, by decide +kernel,
    by decide +kernel, inquiring_carries 0 _ _ rfl (by decide) rfl, rfl, rfl,
    by unfold State.notYielding; decide +kernel, by decide +kernel, rfl, rfl, rfl, rfl, by decide, by decide⟩
/-- A SWAPPING entry whose refresh started at 1,000. -/
def refreshing0 : State :=
  withEntry 0 { entry12 .swapping with
    pending := some ⟨410, 1, none⟩, swapRecord := some ⟨410, 1, none⟩, refreshStart := some 1000 } two
/-- The session of a job, a withdrawn SWAP among them, is in flight; refused and waiting jobs. -/
theorem witness_SwapsPollsAndRetriesRunInTime :
    let w := (withRail 0 .proven [] (withEntry 0 { entry12 .preloaded with pending := some ⟨410, 1, none⟩ } two)).setActivity
      0 (.session 0 (.job .swap) 0 none)
    let l := inJob .poll refreshing0
    let refused := { Job.make .preload 0 none with refused := true }
    let c := (withRail 0 .proven [refused] two).setActivity 0 (.session 0 (.refusalCheck .preload) 0 none)
    let refusedSwap := { Job.make .swap 0 none with refused := true }
    let x := (withRail 0 .proven [refusedSwap] (withEntry 0 { entry12 .preloaded with
      pending := some ⟨410, 1, none⟩ } two)).setActivity 0 (.session 0 (.refusalCheck .swap) 0 none)
    let d := withRail 0 .proven [Job.make .poll 0 (some 1000), Job.make .revisit 63 (some 1000),
      { identityJob with pos := 1 }, Job.make .assign 2 (some 1000), Job.make .preload 2 (some 1000)] refreshing0
    w.notYielding ∧ w.noneToRestage ∧ (w.engine 0).activity = .session 0 (.job .swap) 0 none
      ∧ (w.entry 0).state = .preloaded
      ∧ l.notYielding ∧ l.noneToRestage ∧ (l.engine 0).activity = .session 0 (.job .poll) 0 none
      ∧ (l.entry 0).state = .swapping ∧ (l.entry 0).clearWaiting = false
      ∧ (l.entry 0).swapRecord = some ⟨410, 1, none⟩ ∧ (l.entry 0).refreshStart = some 1000
      ∧ (l.entry 0).article.isSome = true
      ∧ max l.now 10000999 < 1000 + 10000000 ∧ 1000 + 10000000 ≤ max l.now 10001000
      ∧ c.notYielding ∧ c.noneToRestage ∧ (c.engine 0).activity = .session 0 (.refusalCheck .preload) 0 none
      ∧ (c.rail 0).job? .preload 0 = some refused ∧ refused.refused = true
      ∧ x.notYielding ∧ x.noneToRestage ∧ (x.engine 0).activity = .session 0 (.refusalCheck .swap) 0 none
      ∧ (x.rail 0).job? .swap 0 = some refusedSwap ∧ refusedSwap.refused = true ∧ (x.entry 0).state = .preloaded
      ∧ d.notYielding ∧ d.noneToRestage ∧ (d.entry 0).state = .swapping
      ∧ (d.rail 0).job? .poll 0 = some (Job.make .poll 0 (some 1000))
      ∧ (d.rail 0).job? .revisit 63 = some (Job.make .revisit 63 (some 1000))
      ∧ (d.rail 0).job? .census 1 = some { identityJob with pos := 1 }
      ∧ (d.rail 0).job? .assign 2 = some (Job.make .assign 2 (some 1000))
      ∧ (d.rail 0).job? .preload 2 = some (Job.make .preload 2 (some 1000)) := by
  simp only [State.notYielding, State.noneToRestage]; decide +kernel
/-- Record 7 of article 12 falls on a station with an entry of each case. -/
theorem witness_PriceRecordIsStagedOntoItsEntries :
    let s := hearing two
    s.canReceive ∧ s.canonical ∧ s.rolesSound ∧ s.noneToRestage ∧ s.notYielding ∧ stationFits 7 = true
      ∧ (7 : Byte) ≠ s.straps.ptn ∧ rec7.length = 32 ∧ (∃ x, judgeRecord rec7 = .ok x ∧ x.batch = 411 ∧ x.seq = 7)
      ∧ s.bankOf 411 = some .a ∧ 7 ≤ (s.bank .a).count ∧ (s.bank .a).mark 7 = none
      ∧ sectorOf 7 ∉ (s.bank .a).eraseList ∧ 7 ∉ (s.bank .a).spoiled
      ∧ takesArticle 12 (entry12 .current) = true ∧ takesArticle 13 (entry12 .current) = false
      ∧ s.liveBatch = some 410 ∧ s.nextBatch = some 411 :=
  ⟨two_canReceive, by unfold State.canonical; decide +kernel, two_roles,
    by unfold State.noneToRestage; decide +kernel, by unfold State.notYielding; decide +kernel, by decide +kernel,
    by decide +kernel, rfl, ⟨_, test_record_fields, rfl, rfl⟩, by decide +kernel⟩
theorem witness_PreloadAndAssignSessionsEnd :
    let s := (withEntry 0 { entry12 .preloading with pending := some ⟨411, 7, none⟩ } two).setActivity 0
      (.session 0 (.job .preload) 0 (some (411, 7)))
    let a := inJob .assign (withEntry 0 (entry12 .swapping) two)
    s.notYielding ∧ (s.engine 0).activity = .session 0 (.job .preload) 0 (some (411, 7)) ∧ s.noneToRestage
      ∧ (s.entry 0).state = .preloading ∧ (s.entry 0).pending = some ⟨411, 7, none⟩
      ∧ a.carries 0 .assign 0 0 (runningJob .assign) ∧ (a.entry 0).article.isSome = true
      ∧ (a.entry 0).state = .swapping :=
  ⟨by unfold State.notYielding; decide +kernel, by decide +kernel, by unfold State.noneToRestage; decide +kernel,
    by decide +kernel, by decide +kernel, inJob_carries _ _ rfl, by decide +kernel, by decide +kernel⟩
/-- YIELDING, with positions 0 and 1 of the rail X_0 SWAPPING and the POLL of position 0 in flight, which has
failed twice in family ADDRESS. -/
def pollYielding : State :=
  withEntry 257 (entry12 .swapping) (withEntry 256 { entry12 .swapping with family := .address, attempts := 2 }
    ((withRail 4 .proven [runningJob .poll] { two with
      straps := { two.straps with ptn := 7, xw := true }
      adopt := { two.adopt with holder := .yielding } }).setActivity 0 (.session 4 (.job .poll) 0 none)))
/-- R174: this give-up of a POLL makes its entry FAULTED, not ABSENT (log entry 58). -/
theorem test_poll_give_up_in_yielding : (match exec (.pollSessionEnd 0 0 .addressRefused .nothing) pollYielding with
    | .next u => decide ((u.entry 256).state = .faulted) && u.alerts.entryFault
    | _ => false) = true := by decide +kernel
theorem witness_ThirdAddressRefusalGivesUp_in_yielding :
    pollYielding.carries 0 .poll 4 0 (runningJob .poll) ∧ pollYielding.canonical ∧ pollYielding.workSound
      ∧ pollYielding.adoptionActive = true ∧ pollYielding.adopt.holder = .yielding ∧ isCross 4 = true
      ∧ (∀ k : Fin 4, (pollYielding.rail (crossRail k)).enabled = true →
          (pollYielding.rail (crossRail k)).power = true ∧ (pollYielding.rail (crossRail k)).proveDue = false)
      ∧ (pollYielding.rail (crossRail 0)).enabled = true ∧ slotOf (crossRail 0) 1 ≠ slotOf 4 0
      ∧ (pollYielding.entry (slotOf (crossRail 0) 1)).state = .swapping
      ∧ (pollYielding.entry (slotOf 4 0)).state = .swapping ∧ (pollYielding.entry (slotOf 4 0)).family = .address
      ∧ (pollYielding.entry (slotOf 4 0)).attempts = 2 ∧ (pollYielding.entry (slotOf 4 0)).clearWaiting = false :=
  ⟨⟨rfl, ⟨none, rfl⟩, rfl, rfl, rfl⟩, by unfold State.canonical; decide +kernel,
    by unfold State.workSound; decide +kernel, by decide +kernel⟩
/-- Position 0 of rail 0 SWAPPING by the report of a REVISIT that waits for the label's identity, its POLL in
flight, which has failed twice in family ADDRESS. -/
def revisited0 : State :=
  (withRail 0 .proven [runningJob .poll, { identityJob with kind := .revisit, due := some 501000 }]
    (withEntry 0 { entry12 .swapping with family := .address, attempts := 2 } two)).setActivity 0
      (.session 0 (.job .poll) 0 none)
/-- R102, R128: the give-up withdraws the POLL and leaves the listed REVISIT as it stands. -/
theorem test_give_up_leaves_listed_revisit :
    (match exec (.pollSessionEnd 1000 0 .addressRefused .nothing) revisited0 with
    | .next u => decide ((u.entry 0).state = .absent ∧ (u.rail 0).work = (revisited0.rail 0).work.tail)
    | _ => false) = true := by decide +kernel
theorem witness_ThirdAddressRefusalGivesUp_with_revisit_listed :
    revisited0.carries 0 .poll 0 0 (runningJob .poll) ∧ revisited0.notYielding ∧ revisited0.canonical
      ∧ (revisited0.entry 0).family = .address ∧ (revisited0.entry 0).attempts = 2
      ∧ (revisited0.entry 0).clearWaiting = false ∧ (revisited0.entry 0).state ≠ .vacant
      ∧ ((revisited0.rail 0).job? .revisit 0).bind Job.due = some 501000 ∧ max revisited0.now 500999 < 501000 :=
  ⟨⟨rfl, ⟨none, rfl⟩, rfl, rfl, rfl⟩, by unfold State.notYielding; decide +kernel,
    by unfold State.canonical; decide +kernel, by decide +kernel⟩
theorem witness_ThirdAddressRefusalGivesUp :
    let s := inJob .poll (withEntry 0 { entry12 .swapping with family := .address, attempts := 2 } two)
    failureCommand 0 0 .addressRefused .poll = some (.pollSessionEnd 0 0 .addressRefused .nothing)
      ∧ s.carries 0 .poll 0 0 (runningJob .poll) ∧ s.notYielding ∧ s.canonical
      ∧ (s.entry 0).family = .address ∧ (s.entry 0).attempts = 2 ∧ (s.entry 0).clearWaiting = false
      ∧ (s.entry 0).state ≠ .vacant ∧ (s.rail 0).job? .revisit 0 = none
      ∧ ((withEntry 0 { Entry.vacant with family := .address, attempts := 2 } two).entry 0).state = .vacant :=
  ⟨rfl, inJob_carries _ _ rfl, by unfold State.notYielding; decide +kernel, by unfold State.canonical; decide +kernel,
    by decide +kernel⟩
theorem witness_StretchTimeoutIsFollowedByThePulse :
    let s := inJob .assign two
    let p := (withRail 0 .proven [] two).setActivity 0 (.pulse 0 1000)
    s.notYielding ∧ (s.rail 0).enabled = true ∧ (s.engine 0).activity = .session 0 (.job .assign) 0 none
      ∧ (p.engine 0).activity = .pulse 0 1000 ∧ nextWork (p.at 0) 0 = none ∧ nextWork (p.at 0) 4 = none
      ∧ p.noneToRestage :=
  ⟨by unfold State.notYielding; decide +kernel, by decide +kernel, by decide +kernel, by decide +kernel,
    by decide +kernel, by decide +kernel, by unfold State.noneToRestage; decide +kernel⟩
theorem witness_RailPowerAndDeadRailsLeadToProvings :
    let s := withRail 0 .unproven [] (withEntry 0 (entry12 .preloaded) two)
    let d := two.setRail 5 { Rail.reset true with state := .dead, reproveAt := some 1000 }
    s.notYielding ∧ (s.rail 0).enabled = true ∧ (s.rail 0).state = .unproven ∧ (s.entry 0).state = .preloaded
      ∧ s.canonical ∧ ((withEntry 0 (entry12 .swapping) two).entry 0).state = .swapping
      ∧ d.notYielding ∧ (d.rail 5).state = .dead ∧ expired (d.rail 5).reproveAt (d.at 1000) = true :=
  ⟨by unfold State.notYielding; decide +kernel, by decide +kernel, by decide +kernel, by decide +kernel,
    by unfold State.canonical; decide +kernel, by decide +kernel, by unfold State.notYielding; decide +kernel,
    by decide +kernel, by decide +kernel⟩
/-- A cross rail held, one held with work on it and an entry SWAPPING, and a claim whose guard has run. -/
def held0 : State := withRail 4 .proven [] { hearing two with adopt := { two.adopt with holder := .holding } }
def heldBusy : State :=
  withRail 4 .proven [Job.make .swap 1 none, Job.make .poll 0 (some 1000)]
    (withEntry (slotOf 4 0) (entry12 .swapping) held0)
def guarded0 : State := { hearing two with adopt := { two.adopt with holder := .claiming, guardAt := some 1000 } }
theorem held_sound :
    (held0.canReceive ∧ held0.canonical ∧ held0.workSound)
      ∧ (heldBusy.canReceive ∧ heldBusy.canonical ∧ heldBusy.workSound)
      ∧ (guarded0.canReceive ∧ guarded0.canonical ∧ guarded0.workSound) := by
  refine ⟨⟨?_, ?_, ?_⟩, ⟨?_, ?_, ?_⟩, ⟨?_, ?_, ?_⟩⟩ <;>
    first
    | (unfold State.canReceive; decide +kernel)
    | (unfold State.canonical; decide +kernel)
    | (unfold State.workSound; decide +kernel)
theorem witness_PartnerFrameGivesTheRailsBack :
    (held0.adoptionActive = true ∧ frameFits (.stop 411) = true ∧ held0.adopt.holder = .holding
        ∧ held0.adopt.heldFrom = none ∧ yieldCondition held0 = true
        ∧ (held0.rail (crossRail 0)).enabled = true ∧ placesTaken held0 < 16 ∧ held0.trunk.waiters = [])
      ∧ (heldBusy.adoptionActive = true ∧ heldBusy.adopt.holder = .holding ∧ yieldCondition heldBusy = false
        ∧ (∀ k : Fin 4, (heldBusy.rail (crossRail k)).enabled = true →
            (heldBusy.rail (crossRail k)).power = true ∧ (heldBusy.rail (crossRail k)).proveDue = false)
        ∧ ((heldBusy.rail (crossRail 0)).job? .poll 0).isSome = true
        ∧ (heldBusy.entry (slotOf 4 0)).state = .swapping)
      ∧ (guarded0.adoptionActive = true ∧ guarded0.adopt.holder = .claiming
        ∧ expired guarded0.adopt.guardAt (guarded0.at 1000) = true
        ∧ (∀ k : Fin 4, (guarded0.rail (crossRail k)).enabled = false)
        ∧ (∀ k : Fin 4, ∀ p : Fin 64, (guarded0.entry (slotOf (crossRail k) p)).state ≠ .swapping)) := by
  refine ⟨?_, ?_, ?_⟩ <;> decide +kernel
/-- A hold that began at 1,000 and was fed last at 2,251,000. -/
def holding0 : State := { two with flip := { two.flip with hold := some ⟨3001000, 3001000⟩ } }
theorem witness_HoldExpiryFlips :
    let s := withEntry 0 { entry12 .preloaded with pending := some ⟨411, 7, none⟩ }
      (withEntry 1 { entry12 .staged with pending := some ⟨410, 1, none⟩, deferred := some 7 }
        (withEntry 2 { entry12 .swapping with pending := some ⟨410, 1, none⟩ }
          (withEntry 3 { entry12 .absent with pending := some ⟨410, 1, none⟩ } holding0)))
    holding0.power = .on ∧ holding0.rolesSound ∧ holding0.flip.hold = some ⟨3001000, 3001000⟩
      ∧ 3001000 ≤ max holding0.now 3001000 ∧ holding0.bankIn .next = some .a
      ∧ (holding0.bank .a).batch = some 411 ∧ (holding0.bank BankId.a.other).role = .live
      ∧ s.canonical ∧ s.workSound ∧ s.noneToRestage ∧ s.notYielding ∧ s.liveBatch = some 410
      ∧ (s.entry 0).state = .preloaded ∧ (s.entry 1).deferred = some 7 ∧ (s.entry 2).state = .swapping
      ∧ (s.entry 3).state = .absent :=
  ⟨rfl, two_roles, rfl, by decide, by decide +kernel, by decide +kernel, by decide +kernel,
    by unfold State.canonical; decide +kernel, by unfold State.workSound; decide +kernel,
    by unfold State.noneToRestage; decide +kernel, by unfold State.notYielding; decide +kernel, by decide +kernel,
    by decide +kernel, by decide +kernel, by decide +kernel, by decide +kernel⟩
theorem witness_HoldsCallsAndEchoesRun :
    let s := { two with flip := ⟨some ⟨3001000, 751000⟩, some ⟨411, 30001000, 251000⟩, some ⟨410, 60001000, 401000⟩⟩ }
    s.power = .on ∧ s.listenOnly = false ∧ placesTaken s < 16 ∧ s.trunk.waiters = []
      ∧ s.flip.hold = some ⟨3001000, 751000⟩ ∧ 751000 ≤ max s.now 751000
      ∧ s.flip.call = some ⟨411, 30001000, 251000⟩ ∧ s.flip.echo = some ⟨410, 60001000, 401000⟩
      ∧ 30001000 ≤ max s.now 30001000 ∧ 60001000 ≤ max s.now 60001000 := by decide +kernel
theorem witness_ClaimingTakesTheReleasedPorts :
    let s := { two with adopt := { two.adopt with silenceAt := some 1000 } }
    let c := { two with adopt := { two.adopt with holder := .claiming, guardAt := some 1000 } }
    s.listenOnly = false ∧ s.adopt.holder = .watching ∧ expired s.adopt.silenceAt (s.at 1000) = true
      ∧ placesTaken s < 16 ∧ s.trunk.waiters = []
      ∧ { s with trunk := { s.trunk with waiters := [.call] } }.trunk.waiters ≠ []
      ∧ c.adopt.holder = .claiming ∧ expired c.adopt.guardAt (c.at 1000) = true
      ∧ (Vector.replicate 4 true).all id = true ∧ (#v[true, false, true, true]).all id = false := by
  decide +kernel
theorem witness_AssertedHoldLineReleasesThePort :
    let s := withRail 4 .proven [] { two with adopt := { two.adopt with holder := .holding } }
    s.power = .on ∧ s.adopt.holder = .holding ∧ s.canonical ∧ (s.rail (crossRail 0)).enabled = true
      ∧ (s.rail (crossRail 1)).enabled = false
      ∧ ((withRail 7 .proven [] s).rail (crossRail 3)).enabled = true :=
  ⟨rfl, rfl, by unfold State.canonical; decide +kernel, by decide +kernel, by decide +kernel, by decide +kernel⟩
theorem witness_HomeSideTakesItsRails :
    let s := { two with
      adopt := { two.adopt with waitUntil := some 1000, trigger := some 32 }
      trunk := { two.trunk with sources := [(32, some 1000)] } }
    let h := { two with adopt := { two.adopt with home := #v[.taking (some 1000), .own, .taking none, .undecided] } }
    s.adopt.waitUntil.isSome = true ∧ expired s.adopt.waitUntil (s.at 1000) = true ∧ s.adopt.trigger = some 32
      ∧ Sparse.get none s.trunk.sources (32 : Byte).toNat = some 1000 ∧ 1000 + 30000000 ≤ max s.now 30001000
      ∧ h.adopt.home[(0 : Fin 4)] = .taking (some 1000) ∧ h.adopt.home[(1 : Fin 4)] = .own
      ∧ h.adopt.home[(2 : Fin 4)] = .taking none := by decide +kernel

end Sys2Proof.Tests
end

section
/-! PROOFS. The face composer (file 01, R10 to R14): what each stage can give, the fields of a composed
face, and the obligation on the composed face. -/

namespace Sys2Proof.Machine

/-! ### The markdown stage and the ending snap (R10, R11) -/

/-- R10: the raise of a marked-down price of 0. -/
theorem markdownStage_eq_ite (p m : Nat) :
    markdownStage p m = if p * (100 - m) / 100 = 0 then 1 else p * (100 - m) / 100 := by
  unfold markdownStage
  split <;> omega

theorem one_le_markdownStage (p m : Nat) : 1 ≤ markdownStage p m := Nat.le_max_left ..

theorem markdownStage_le {p : Nat} (m : Nat) (hp : 1 ≤ p) : markdownStage p m ≤ p := by
  have hfloor : p * (100 - m) / 100 ≤ p :=
    Nat.div_le_of_le_mul (by rw [Nat.mul_comm 100 p]; exact Nat.mul_le_mul_left p (Nat.sub_le 100 m))
  exact Nat.max_le.mpr ⟨hp, hfloor⟩

/-- R11: a snap never moves a price up. -/
theorem endingSnap_le (e : EndingRule) (s : Nat) : endingSnap e s ≤ s := by
  cases e with
  | none => exact Nat.le_refl s
  | end99 | end95 | whole => simp only [endingSnap]; split <;> omega

/-- R11: a snap never takes a price below 1. -/
theorem one_le_endingSnap (e : EndingRule) {s : Nat} (hs : 1 ≤ s) : 1 ≤ endingSnap e s := by
  cases e with
  | none => exact hs
  | end99 | end95 | whole => simp only [endingSnap]; split <;> omega

/-- R10, R11: the final price of a markdown `m` with ending rule `e` on base price `p`. -/
def finalPrice (p m : Nat) (e : EndingRule) : Nat := endingSnap e (markdownStage p m)

theorem one_le_finalPrice (p m : Nat) (e : EndingRule) : 1 ≤ finalPrice p m e :=
  one_le_endingSnap e (one_le_markdownStage p m)

theorem finalPrice_le {p : Nat} (m : Nat) (e : EndingRule) (hp : 1 ≤ p) : finalPrice p m e ≤ p :=
  (endingSnap_le e _).trans (markdownStage_le m hp)

/-! ### The unit-price stage (R14) -/

@[simp] theorem unitStage_none (s : Nat) : unitStage s none = (.absent, none, false) := rfl

theorem unitStage_of_over {s : Nat} {p : Pack} (h : 999999 < unitQuotient s p.reference p.quantity) :
    unitStage s (some p) = (.overflow, some p.code, true) := if_pos h

theorem unitStage_of_le {s : Nat} {p : Pack} (h : unitQuotient s p.reference p.quantity ≤ 999999) :
    unitStage s (some p) = (.value (max 1 (unitQuotient s p.reference p.quantity)), some p.code, false) :=
  if_neg (Nat.not_lt.mpr h)

theorem unitStage_code (s : Nat) (p : Pack) : (unitStage s (some p)).2.1 = some p.code := by
  rcases Nat.lt_or_ge 999999 (unitQuotient s p.reference p.quantity) with h | h
  · rw [unitStage_of_over h]
  · rw [unitStage_of_le h]

/-! ### The fields of a face -/

section FaceWith
variable (r : PriceRecord) (k : FaceKind) (s : Nat) (o : Option (Nat × Nat)) (mv ov : Bool)

@[simp] theorem faceWith_kind : (faceWith r k s o mv ov).kind = k := rfl
@[simp] theorem faceWith_shown : (faceWith r k s o mv ov).shown = s := rfl
@[simp] theorem faceWith_base : (faceWith r k s o mv ov).base = r.base := rfl
@[simp] theorem faceWith_multi : (faceWith r k s o mv ov).multi = o := rfl
@[simp] theorem faceWith_markdownVoid : (faceWith r k s o mv ov).markdownVoid = mv := rfl
@[simp] theorem faceWith_multiVoid : (faceWith r k s o mv ov).multiVoid = ov := rfl

end FaceWith

/-- R14: the three unit-price fields of a face. -/
def Face.unitFields (f : Face) : UnitPrice × Option UnitCode × Bool := (f.unitPrice, f.unitCode, f.unitOver)

/-- The unit-price fields are those of R14 on the shown price of the face. -/
def Face.followsUnitStage (f : Face) (pack : Option Pack) : Prop := f.unitFields = unitStage f.shown pack

theorem faceWith_followsUnitStage (r : PriceRecord) (k : FaceKind) (s : Nat) (o : Option (Nat × Nat))
    (mv ov : Bool) : (faceWith r k s o mv ov).followsUnitStage r.pack := rfl

/-! ### The composer, kind by kind (R12, R13) -/

section Compose
variable {r : PriceRecord}

theorem compose_regular (hk : r.kind = .regular) :
    compose r = faceWith r .regular r.base none false false := by
  simp only [compose, hk]

theorem compose_markdown {m : Nat} {e : EndingRule} (hk : r.kind = .markdown) (hm : r.markdown = some m)
    (he : r.ending = some e) :
    compose r = if finalPrice r.base m e < r.base then faceWith r .markdown (finalPrice r.base m e) none false false
      else faceWith r .regular (finalPrice r.base m e) none true false := by
  have hfinal : endingSnap (r.ending.getD .none) (markdownStage r.base (r.markdown.getD 0)) = finalPrice r.base m e := by
    rw [hm, he, Option.getD_some, Option.getD_some, finalPrice]
  simp only [compose, hk, composeMarkdown, hfinal]

theorem compose_multi {n mp : Nat} (hk : r.kind = .multi) (ho : r.multi = some (n, mp)) :
    compose r = if mp < n * r.base then faceWith r .multi r.base (some (n, mp)) false false
      else faceWith r .regular r.base none false true := by
  simp only [compose, hk, composeMulti, ho]

/-- R9: every face but a WITHDRAWN one comes from `faceWith`. -/
theorem compose_eq_faceWith (hk : r.kind ≠ .withdraw) :
    ∃ k s o mv ov, compose r = faceWith r k s o mv ov := by
  cases h : r.kind with
  | regular => exact ⟨_, _, _, _, _, compose_regular h⟩
  | markdown =>
    simp only [compose, h, composeMarkdown]
    split <;> exact ⟨_, _, _, _, _, rfl⟩
  | multi =>
    simp only [compose, h, composeMulti]
    split
    · split <;> exact ⟨_, _, _, _, _, rfl⟩
    · exact ⟨_, _, _, _, _, rfl⟩
  | withdraw => exact absurd h hk

theorem compose_followsUnitStage (hk : r.kind ≠ .withdraw) : (compose r).followsUnitStage r.pack := by
  obtain ⟨k, s, o, mv, ov, h⟩ := compose_eq_faceWith hk
  exact h ▸ faceWith_followsUnitStage r k s o mv ov

/-- R14, R15: without a pack the unit price is absent, on a WITHDRAWN face too. -/
theorem compose_unitFields_of_no_pack (hp : r.pack = none) : (compose r).unitFields = (.absent, none, false) := by
  by_cases hk : r.kind = .withdraw
  · simp only [compose, hk, composeWithdraw, Face.unitFields]
  · have h := compose_followsUnitStage hk
    rwa [Face.followsUnitStage, hp, unitStage_none] at h

end Compose

/-- R14: a face that follows the unit-price stage of a pack, by the size of the quotient. -/
theorem Face.followsUnitStage.cases {f : Face} {p : Pack} (h : f.followsUnitStage (some p)) :
    let up := unitQuotient f.shown p.reference p.quantity
    f.unitCode = some p.code
      ∧ (999999 < up → f.unitPrice = .overflow ∧ f.unitOver = true)
      ∧ (up = 0 → f.unitPrice = .value 1 ∧ f.unitOver = false)
      ∧ (1 ≤ up → up ≤ 999999 → f.unitPrice = .value up ∧ f.unitOver = false) := by
  intro up
  have hprice : f.unitPrice = (unitStage f.shown (some p)).1 := congrArg (·.1) h
  have hcode : f.unitCode = (unitStage f.shown (some p)).2.1 := congrArg (·.2.1) h
  have hover : f.unitOver = (unitStage f.shown (some p)).2.2 := congrArg (·.2.2) h
  refine ⟨hcode.trans (unitStage_code _ _), fun hup => ?_, fun hup => ?_, fun hlow hup => ?_⟩
  · rw [hprice, hover, unitStage_of_over hup]
    exact ⟨rfl, rfl⟩
  · have hmax : max 1 (unitQuotient f.shown p.reference p.quantity) = 1 := by omega
    rw [hprice, hover, unitStage_of_le (by omega), hmax]
    exact ⟨rfl, rfl⟩
  · rw [hprice, hover, unitStage_of_le hup, Nat.max_eq_right hlow]
    exact ⟨rfl, rfl⟩

/-- R10 to R12: the face of a MARKDOWN record, by whether its final price is below the base price. -/
theorem compose_markdown_cases {r : PriceRecord} {m : Nat} {e : EndingRule} (hk : r.kind = .markdown)
    (hm : r.markdown = some m) (he : r.ending = some e) :
    let final := finalPrice r.base m e
    (compose r).shown = final ∧ (compose r).base = r.base
      ∧ (final < r.base → (compose r).kind = .markdown ∧ (compose r).markdownVoid = false)
      ∧ (final = r.base → (compose r).kind = .regular ∧ (compose r).markdownVoid = true) := by
  rw [compose_markdown hk hm he]
  by_cases hlt : finalPrice r.base m e < r.base
  · simp [hlt, hlt.ne]
  · simp [hlt]

/-- R13: the face of a MULTI record, by whether its offer saves. -/
theorem compose_multi_cases {r : PriceRecord} {n mp : Nat} (hk : r.kind = .multi) (ho : r.multi = some (n, mp)) :
    (compose r).shown = r.base
      ∧ (mp < n * r.base → (compose r).kind = .multi ∧ (compose r).multi = some (n, mp)
          ∧ (compose r).multiVoid = false)
      ∧ (n * r.base ≤ mp → (compose r).kind = .regular ∧ (compose r).multi = none
          ∧ (compose r).multiVoid = true) := by
  rw [compose_multi hk ho]
  by_cases hsaves : mp < n * r.base
  · simp [hsaves]
  · simp [hsaves, Nat.not_lt.mp hsaves]

/-- Settles O9: the final price of a MARKDOWN record is `finalPrice`, whose bounds are those of the two
stages; the rest is the composer kind by kind and the unit-price stage on the shown price. -/
theorem faceFollowsTheStages : Obligations.FaceFollowsTheStages := by
  refine ⟨fun r m e hk hm he hbase _ _ _ => ?_, fun r => ⟨fun hk => ?_, fun n mp => compose_multi_cases,
    fun pack hk hp _ => ?_, fun hp => ?_⟩⟩
  · intro floor raised final
    have hfinal : final = finalPrice r.base m e := by
      rw [finalPrice, markdownStage_eq_ite]
      cases e <;> rfl
    obtain ⟨hshown, hfaceBase, hbelow, hvoid⟩ := compose_markdown_cases hk hm he
    rw [hfinal]
    exact ⟨hshown, finalPrice_le m e hbase, one_le_finalPrice r.base m e, hfaceBase, hbelow, hvoid⟩
  · rw [compose_regular hk]
    exact ⟨rfl, rfl⟩
  · exact (hp ▸ compose_followsUnitStage hk).cases
  · have h := compose_unitFields_of_no_pack hp
    exact ⟨congrArg (·.1) h, congrArg (·.2.1) h, congrArg (·.2.2) h⟩

end Sys2Proof.Machine
end

section
/-! PROOFS. The batch log (file 02, R19): the order of batch numbers as a difference modulo 65,536. -/

namespace Sys2Proof.Machine

/-! ### Batch numbers (R19) -/

/-- R19: the difference of two batch numbers wraps, so it is the difference modulo 65,536. -/
theorem toNat_batch_sub (a b : Batch) : (a - b).toNat = (a.toNat + 65536 - b.toNat) % 65536 := by
  have hb : b.toNat < 65536 := b.isLt
  rw [BitVec.toNat_sub]
  congr 1
  omega

theorem newer_iff (a b : Batch) : newer a b = true ↔ 1 ≤ (a - b).toNat ∧ (a - b).toNat ≤ 32767 := by
  simp only [newer, Bool.and_eq_true, decide_eq_true_eq]

/-- At half the number space and beyond, the difference no longer makes a batch newer. -/
theorem newer_eq_false_of_half_le {a b : Batch} (h : 32768 ≤ (a - b).toNat) : newer a b = false := by
  rw [Bool.eq_false_iff, Ne, newer_iff]
  omega

theorem toNat_batch_sub_eq_zero_iff (a b : Batch) : (a - b).toNat = 0 ↔ a = b :=
  calc
    (a - b).toNat = 0 ↔ a - b = 0 := BitVec.toNat_inj (y := 0)
    _ ↔ a = b := sub_eq_zero

/-- Half the number space is its own negative: the difference is the same from either batch. -/
theorem toNat_batch_sub_comm_of_half {a b : Batch} (h : (a - b).toNat = 32768) : (b - a).toNat = 32768 := by
  have hsub : a - b = 32768 := BitVec.eq_of_toNat_eq h
  have hneg : b - a = -32768 := by rw [← neg_sub, hsub]
  rw [hneg]
  decide

/-- Settles O8: `newer` bounds the wrapped difference, which is zero for equal batches only and is its own
negative at half the number space. -/
theorem newerBatchIsHalfTheNumberSpace : Obligations.NewerBatchIsHalfTheNumberSpace := by
  intro a b
  rw [← toNat_batch_sub]
  refine ⟨newer_iff a b, toNat_batch_sub_eq_zero_iff a b, fun hhalf => ⟨?_, ?_⟩⟩
  · exact newer_eq_false_of_half_le hhalf.ge
  · exact newer_eq_false_of_half_le (toNat_batch_sub_comm_of_half hhalf).ge

end Sys2Proof.Machine
end
